-- ==== Sys2Proof/Word.lean ====
section
/-! DEFINITION. The words of the SQ-804 and their plainest arithmetic. -/

namespace Sys2Proof

/-- A byte of a frame, of the array or of a bus (R200). -/
abbrev Byte := BitVec 8

/-- A two-byte item: register numbers, edge numbers, windows (R200). -/
abbrev Half := BitVec 16

/-- A four-byte item: register values, setpoints, limits, keys (R200). -/
abbrev Val := BitVec 32

/-- The 8 bytes of a slot label, "any bytes" (R132). -/
abbrev Label := Vector Byte 8

/-- A table of a fixed number of like entries (groups, targets, lanes, loops, slots). -/
abbrev Table (α : Type) (n : Nat) := Vector α n

/-- One of the two sync lines. -/
inductive Line where
  | sync0
  | sync1
deriving DecidableEq, Repr

/-- All numbers below `n`, in rising order. -/
def upTo (n : Nat) : List (Fin n) := List.finRange n

/-- A number at most `n`, chosen by `k`; with nothing to choose, 0. -/
def atMost (n k : Nat) : Nat := if n = 0 then 0 else k % (n + 1)

/-- An item of a list, chosen by `k`; with nothing to choose, the one there is. -/
def oneOf {α : Type} (k : Nat) : List α → Option α
  | [] => none
  | [x] => some x
  | x :: y :: l => (x :: y :: l)[k % (l.length + 2)]?

end Sys2Proof
end

