-- ==== Sys2Proof/Syntax.lean ====
section
/-! DEFINITION. The commands of the part: one constructor per row of spec/opcode_table.json, with what the outside
world supplies. A host request carries the head of its frame and the items of its body as the wire carries them
(R200), so that values out of range can be sent too. -/

namespace Sys2Proof

/-- What a completed frame brings beside its code and its items: its tag, and whether its two CRC bytes equal the
CRC-16 computed over it (R191). CHARACTER_ARRIVAL computes that from the bytes. -/
structure ReqHead where
  tag : Byte
  crcOk : Bool
deriving DecidableEq, Repr

/-- The record items of a GROUP.ADD (table 10.4): byte 0 the form, byte 1 the target, lane or loop, bytes 2 and 3 the
register or duration, byte 4 the step or gap, byte 5 the count (the length of `values`), bytes 6 and 7 the attempts. -/
structure RawRecord where
  form : Byte
  which : Byte
  word : Half
  small : Byte
  attempts : Half
  values : List Val
deriving DecidableEq, Repr

/-- The nine configuration fields of R30 in table order, one byte each. -/
structure RawTarget where
  enabled : Byte
  lane : Byte
  address : Byte
  regWidth : Byte
  dataWidth : Byte
  autoInc : Byte
  verify : Byte
  retries : Byte
  timeout : Byte
deriving DecidableEq, Repr

/-- Kind, speed in kHz, and the mode with its presence byte (LANE.SET, table 10.3.1). -/
structure RawLane where
  kind : Byte
  speed : Half
  modePresent : Byte
  mode : Byte
deriving DecidableEq, Repr

/-- The loop block of table 10.5.2 from `line` onwards, with the points sent. -/
structure RawLoop where
  line : Byte
  period : Byte
  measTarget : Byte
  measReg : Half
  outTarget : Byte
  outReg : Half
  setpoint : Val
  step : Half
  narrow : Val
  wide : Val
  min : Val
  max : Val
  polarity : Byte
  fast : Byte
  initialOutput : Val
  autostart : Byte
  followerPresent : Byte
  followerTarget : Byte
  followerReg : Half
  points : List (Val × Val)
deriving DecidableEq, Repr

/-- A start designation: presence, slot, line, skip (SETUP.START, table 10.3.1). -/
structure RawDesignation where
  present : Byte
  slot : Byte
  line : Byte
  skip : Byte
deriving DecidableEq, Repr

/-- The levels of the two baud strap pins (R189); true is high. -/
structure Straps where
  baud1 : Bool
  baud0 : Bool
deriving DecidableEq, Repr

/-- How a bus transaction ends, clock hold apart (R46): ACK with the data bytes the target sent, in bus order (none
for a write), or NAK, with the number of the part's bytes that the target had acknowledged before (R44). -/
inductive BusEnd where
  | ack (data : List Byte)
  | nak (acked : Nat)
deriving DecidableEq, Repr

/-- The commands. -/
inductive Instr where
  -- group requests (chapters 1, 3 and 4)
  | groupOpen (h : ReqHead) (g : Byte)
  | groupAdd (h : ReqHead) (g : Byte) (r : RawRecord)
  | groupClose (h : ReqHead) (g : Byte)
  | groupDrop (h : ReqHead) (g : Byte)
  | groupEdit (h : ReqHead) (g index : Byte) (values : List Val)
  | groupQuery (h : ReqHead) (g : Byte)
  | groupRead (h : ReqHead) (g first : Byte)
  | groupArm (h : ReqHead) (g line skip mode : Byte)
  | groupDisarm (h : ReqHead) (g : Byte)
  | groupApply (h : ReqHead) (g : Byte)
  | groupAbort (h : ReqHead) (g : Byte)
  -- target and lane requests (chapter 2)
  | targetSet (h : ReqHead) (t : Byte) (c : RawTarget)
  | targetQuery (h : ReqHead) (t : Byte)
  | targetClear (h : ReqHead) (t : Byte)
  | targetRead (h : ReqHead) (t : Byte) (reg : Half)
  | laneSet (h : ReqHead) (n : Byte) (c : RawLane)
  | laneQuery (h : ReqHead) (n : Byte)
  -- sync requests (chapter 3)
  | syncSet (h : ReqHead) (line edge : Byte) (window : Half)
  | syncPulse (h : ReqHead) (line : Byte)
  | syncQuery (h : ReqHead) (line : Byte)
  -- loop requests (chapter 5)
  | loopSet (h : ReqHead) (n : Byte) (c : RawLoop)
  | loopStart (h : ReqHead) (n : Byte)
  | loopStop (h : ReqHead) (n : Byte)
  | loopQuery (h : ReqHead) (n : Byte)
  -- slot requests (chapters 6 and 7)
  | slotSave (h : ReqHead) (g slot : Byte) (label : Label)
  | slotLoad (h : ReqHead) (slot g : Byte)
  | slotErase (h : ReqHead) (slot : Byte)
  | slotProtect (h : ReqHead) (slot : Byte)
  | slotUnprotect (h : ReqHead) (slot : Byte)
  | slotLock (h : ReqHead) (slot : Byte)
  | slotFreeze (h : ReqHead)
  | slotList (h : ReqHead)
  -- setup and part requests (chapters 7 to 9)
  | setupSave (h : ReqHead)
  | setupStart (h : ReqHead) (d : RawDesignation)
  | setupQuery (h : ReqHead)
  | partIdent (h : ReqHead)
  | partStatus (h : ReqHead)
  | partResetFull (h : ReqHead)
  | partResetSequencer (h : ReqHead)
  | partResetLanes (h : ReqHead)
  | partResetLoops (h : ReqHead)
  -- the host link (chapter 9)
  | uartFramingError
  | gapTimerExpiry
  | transmitEnd (straps : Straps)
  -- the supply, RESETn and the start sequence (chapters 6 and 8)
  | powerOn (straps : Straps)
  | powerFail
  | resetnAssert
  | resetnRelease (straps : Straps)
  | directoryRebuild
  | setupAreaRead
  -- the sync inputs (chapter 3)
  | syncLevelChange (line : Line) (level : Bool)
  | syncFilterSettled (line : Line)
  | windowExpiry (line : Line)
  -- the lanes (chapter 2)
  | transactionEnd (lane : Fin 4) (e : BusEnd)
  | clockHoldTimeout (lane : Fin 4)
  | pollGapExpiry (lane : Fin 4)
  | waitExpiry (lane : Fin 4)
  -- the array (chapters 6 and 7)
  | eraseComplete (left : List (Nat × Byte))
  | pageProgramComplete (left : Option (List Byte))
  | imageReadComplete
  | fuseProgramComplete (blown : Bool)
  | suspendEffect
  | resumeGuardExpiry
  -- a character on RXD (chapter 9)
  | characterArrival (c : Byte)
deriving DecidableEq, Repr

end Sys2Proof
end

