-- ==== Sys2Proof/Decode.lean ====
section
/-! DEFINITION. Decoding by the opcode table. The block has no instruction words: no row of spec/opcode_table.json
gives a command any bits, so no word spells one. (Request frames are read byte by byte by CHARACTER_ARRIVAL.) -/

namespace Sys2Proof

/-- The command a word spells by the table's bits: none, since no row has bits. -/
def decodeTableWord (_nbits _w : Nat) : Option Instr := none

end Sys2Proof
end

