-- ==== Sys2Proof/Config.lean ====
section
/-! DEFINITION. What the part fixes (sizes, codes of part identification) and the FREE VALUES: constants without a
body, which no proof can look into. -/

namespace Sys2Proof.Config

/-- Records in the pool (R1). -/
abbrev poolSize : Nat := 256

/-- Places of the reply queue, shared by queued replies and outstanding requests (R194). -/
abbrev replyPlaces : Nat := 8

/-- Most requests outstanding at once (R193). -/
abbrev maxOutstanding : Nat := 4

/-- Most notices waiting (R195). -/
abbrev maxNotices : Nat := 16

/-- Longest frame body (R190, R194). -/
abbrev maxBody : Nat := 600

/-- Most records in one GROUP.READ reply (R24). -/
abbrev maxReadRecords : Nat := 8

/-- Longest payload of a slot image (R132, R133). -/
abbrev maxPayload : Nat := 4064

/-- Bytes of a slot header (R132). -/
abbrev headerBytes : Nat := 32

/-- Bytes of the setup record's header (10.5.2). -/
abbrev setupHeaderBytes : Nat := 16

/-- Bytes of a page (R129). -/
abbrev pageBytes : Nat := 256

/-- Pages of an erase unit (R129). -/
abbrev unitPages : Nat := 16

/-- Bytes of an erase unit (R129). -/
abbrev unitBytes : Nat := 4096

/-- The unit number of the setup area: units 0..31 are the slots (R129). -/
abbrev setupUnit : Nat := 32

/-- Length of a version 1 setup body (R203, table 10.5.2). -/
abbrev setupBodyBytes : Nat := 602

/-- Vendor code, part code and revision (R197). -/
abbrev vendorCode : Half := 0x3A71#16
abbrev partCode : Half := 0x0804#16
abbrev revision : Byte := 1#8

/-- FREE VALUE: the 64-bit unique identifier, "fixed at manufacture" (R129). Log entry 7. -/
opaque uniqueId : BitVec 64

/-- FREE VALUE: the time remaining of an open window in 10 us steps, before it is bounded by the window's duration
(R64). The argument numbers the question. Log entry 11. -/
opaque windowLeft : Nat → Nat

/-- FREE VALUE: whether an erase that was abandoned had already erased page 0 (R147). Log entry 9. -/
opaque erasePastPageZero : Nat → Bool

/-- FREE VALUE: which bits of a byte an abandoned erase had already set, by array address (R147). Log entry 9. -/
opaque erasedBits : Nat → Nat → Byte

/-- FREE VALUE: which bits of a byte an abandoned page program had not yet programmed, by array address (R147).
Log entry 9. -/
opaque unprogrammedBits : Nat → Nat → Byte

/-- FREE VALUE: whether an abandoned lock programming had set its bit (R131). Log entry 9. -/
opaque fuseBlown : Nat → Bool

/-- FREE VALUE: the item index that the failure of a SCATTER turned away at its lane head shows, before it is bounded by
the record's items: no item was tried (R41, R85). Log entry 34. -/
opaque turnedAwayItem : Nat → Nat

/-- FREE VALUE: how far a transaction had come when a clock hold or a reset ended it, in symbols, by question and lane,
before it is bounded by the transaction's length (R46, R57). Log entry 37. -/
opaque cutPlace : Nat → Nat → Nat

/-- FREE VALUE: whether the fifth step of a start comes apart from the fourth, so that edges and requests may fall
between them (R184, R188). Log entry 36. -/
opaque lastStepApart : Nat → Bool

/-- FREE VALUE: whether a free transmitter takes a notice as it joins the queue, before a reply of the same step joins
(R196, R206). Log entry 5. -/
opaque noticeAtOnce : Nat → Bool

/-- FREE VALUE: whether the frame whose end is reported next ended while a partial reset was being carried out (R206). Log
entry 5. -/
opaque endedInReset : Nat → Bool

/-- FREE VALUE: how many of the notices that other blocks raised in the same step a notice joins ahead of, before it is
bounded by their number (R195). Log entry 38. -/
opaque noticePlace : Nat → Nat

/-- FREE VALUE: which of the lanes that can take a job takes one first, before it is bounded by their number (R53, R87).
Log entry 38. -/
opaque laneFirst : Nat → Nat

/-- FREE VALUE: which of the lanes that a reset cuts makes the next report, by question and report, before it is bounded
by their number (R53, R57). Log entry 38. -/
opaque cutFirst : Nat → Nat → Nat

/-- FREE VALUE: how many of the launches of an edge come before the TLU takes the edge, before it is bounded by their
number (R61, R82). Log entry 6. -/
opaque loopsPlace : Nat → Nat

/-- FREE VALUE: whether the TLU takes the hand-on of a group write only after the record's lane has taken a loop job
queued behind the record (R86, R124). Log entry 39. -/
opaque handOnLate : Nat → Bool

/-- FREE VALUE: whether the program of a page had begun when it was abandoned (R147). Log entry 9. -/
opaque pageBegun : Nat → Bool

end Sys2Proof.Config
end

