-- ==== Sys2Proof/Machine/State.lean ====
section
/-! DEFINITION. The state of the SQ-804, block by block (00, "Block Overview"), as plain data, and its reset value. -/

namespace Sys2Proof.Machine

/-! ## Codes and small enumerations (table 10.3) -/

/-- The status codes of table 10.3.3. -/
inductive Status where
  | ok | badFrame | badTag | tagInUse | busy | starting | unknownCode | badLength
  | badArg | wrongState | emptyGroup | poolFull | groupPinned | targetInUse | targetFaulted | laneBusy | notConfigured
  | nak | timeout | slotProtected | slotLocked | frozen | slotBlank | slotInvalid | tooLarge | storeFault | aborted
deriving DecidableEq, Repr

/-- The reasons that fault a target (R30, R49). -/
inductive FaultReason where
  | nak | timeout | mismatch
deriving DecidableEq, Repr

/-- The record reasons of R3 and table 10.3.3. -/
inductive Reason where
  | nak | timeout | mismatch | pollExpired | badTarget
deriving DecidableEq, Repr

/-! ## HPT, chapter 9 -/

/-- The receive assembly (R190). `assembling` holds the bytes after the marker in arrival order; `overlong` the tag
and code received. -/
inductive Rx where
  | settling
  | hunting
  | assembling (bytes : List Byte)
  | overlong (tag code : Byte)
deriving DecidableEq, Repr

/-- An entry of the outstanding-request table (R193). -/
structure Outstanding where
  tag : Byte
  code : Byte
deriving DecidableEq, Repr

/-- A reply waiting to be sent: tag, code with its top bit set, and body (R194). `full` marks the reply to a taken
PART.RESET FULL, after whose last byte the reset acts (R187). -/
structure Reply where
  tag : Byte
  code : Byte
  body : List Byte
  full : Bool
deriving DecidableEq, Repr

/-- A notice waiting to be sent: its code and payload; the flags byte is composed when it is sent (R195). -/
structure Notice where
  code : Byte
  payload : List Byte
deriving DecidableEq, Repr

/-- The frame on TXD, whole (R196), and whether it is the FULL reply (R187). -/
structure Sending where
  bytes : List Byte
  full : Bool
deriving DecidableEq, Repr

/-- The rate of both directions of the UART (R189). -/
inductive Baud where
  | b115200 | b1000000 | b3000000
deriving DecidableEq, Repr

/-- Whether the end of a frame can have fallen inside a partial reset (R206; the model's own, log entry 5): it cannot; the
reset of this step has raised a CUT notice with no reply queued, while a frame was being sent; the reset of the step before
has. -/
inductive CutMark where
  | clear | raised | past
deriving DecidableEq, Repr

/-- The Host Port. -/
structure Hpt where
  rx : Rx
  gapTimer : Bool
  outstanding : List Outstanding
  replies : List Reply
  notices : List Notice
  lost : Bool
  sending : Option Sending
  baud : Baud
  cut : CutMark
deriving DecidableEq, Repr

/-! ## GTB, chapter 1, and LSQ, chapter 4 -/

/-- The step of a SCATTER (R6). -/
inductive Stride where
  | up | stay | down
deriving DecidableEq, Repr

/-- A record with the fields of its form (R6). -/
inductive Record where
  | single (target : Fin 16) (reg : Half) (value : Val)
  | run (target : Fin 16) (reg : Half) (values : List Val)
  | scatter (target : Fin 16) (reg : Half) (step : Stride) (values : List Val)
  | poll (target : Fin 16) (reg : Half) (mask expect : Val) (attempts : Half) (gap : Byte)
  | wait (lane : Fin 4) (duration : Half)
  | setpoint (loop : Fin 4) (value : Val)
deriving DecidableEq, Repr

/-- The states of a group (R4). -/
inductive GroupState where
  | empty | opened | ready | armed | launching | loading
deriving DecidableEq, Repr

/-- The outcome of a launch (R3, R88). -/
inductive LaunchOutcome where
  | none | applied | torn | aborted | cut
deriving DecidableEq, Repr

/-- `first failure` (R3, R85). -/
structure FirstFailure where
  index : Nat
  reason : Reason
  item : Option Nat
deriving DecidableEq, Repr

/-- `launch edge` (R3). -/
structure LaunchEdge where
  number : Half
  line : Line
deriving DecidableEq, Repr

/-- A group entry (R3). -/
structure GroupEntry where
  state : GroupState
  records : List Record
  pins : Nat
  lastOutcome : LaunchOutcome
  late : Bool
  overrunSeen : Bool
  done : Nat
  failed : Nat
  skipped : Nat
  withdrawn : Nat
  firstFailure : Option FirstFailure
  launchEdge : Option LaunchEdge
deriving DecidableEq, Repr

/-- The Group Table: eight entries and the number of free records of the pool (R1, R3). -/
structure Gtb where
  groups : Table GroupEntry 8
  free : Nat
deriving DecidableEq, Repr

/-- A launch account of the LSQ (R77). -/
structure Account where
  pending : Nat
  abortTaken : Bool
  cut : Bool
deriving DecidableEq, Repr

/-! ## TGT and lanes, chapter 2 -/

/-- Size of a register number on the bus (R30). -/
inductive RegWidth where
  | one | two
deriving DecidableEq, Repr

/-- Size of a register value on the bus (R30). -/
inductive DataWidth where
  | one | two | four
deriving DecidableEq, Repr

/-- The two forms of a target address (R30). -/
inductive Address where
  | i2c (addr : Byte)
  | selectA
  | selectB
deriving DecidableEq, Repr

/-- The configuration fields of a target entry (R30). -/
structure TargetCfg where
  enabled : Bool
  lane : Fin 4
  address : Address
  regWidth : RegWidth
  dataWidth : DataWidth
  autoInc : Bool
  verify : Bool
  retries : Fin 4
  timeout : Option Byte
deriving DecidableEq, Repr

/-- A target entry: its configuration, and its fault reason, present exactly when it is faulted (R30). -/
structure TargetEntry where
  cfg : TargetCfg
  fault : Option FaultReason
deriving DecidableEq, Repr

/-- The I2C speeds (R35). -/
inductive I2cSpeed where
  | khz100 | khz400 | khz1000
deriving DecidableEq, Repr

/-- The SPI speeds (R35). -/
inductive SpiSpeed where
  | mhz1 | mhz5 | mhz10 | mhz25
deriving DecidableEq, Repr

/-- The SPI modes (R35). -/
inductive SpiMode where
  | mode0 | mode3
deriving DecidableEq, Repr

/-- Lane settings: a mode is present only for SPI (R35). -/
inductive LaneSettings where
  | i2c (speed : I2cSpeed)
  | spi (speed : SpiSpeed) (mode : SpiMode)
deriving DecidableEq, Repr

/-- The loop jobs (R39, table 10.3.4). -/
inductive LoopJobKind where
  | measure | output | follower | outputSeed | followerSeed
deriving DecidableEq, Repr

/-- A job of a lane queue with its owner and what it carries (R39). A measure job carries no value: 0 stands there. -/
inductive Job where
  | record (group : Fin 8) (index : Nat) (r : Record)
  | loop (n : Fin 4) (kind : LoopJobKind) (target : Fin 16) (reg : Half) (value : Val)
  | read (tag : Byte) (target : Fin 16) (reg : Half)
deriving DecidableEq, Repr

/-- What a bus transaction puts on the lane pins, in order (R44, R45): conditions, the bytes the part sends, and the
bytes the target sends, with the part's acknowledge on I2C. `release`: the part lets go of SCL and SDA (R46, R57). -/
inductive BusSym where
  | start | repeatedStart | stop | release
  | send (b : Byte)
  | takeAck | takeNak
  | assertSelect (b : Bool) | releaseSelect (b : Bool) | take
deriving DecidableEq, Repr

/-- What the job in flight is doing: a write, the verify read after it, a read, or no transaction (HOLD) (R40, R47). -/
inductive Part where
  | write | verify | read | hold
deriving DecidableEq, Repr

/-- The job in flight (R37, R40): the entry held at its dispatch check (R41), what it is doing, its attempt number
(R48), the SCATTER item index (R50), the POLL reads made (R51), the abort mark (R93), and the symbols of its
transaction in progress, as they go over the bus if nothing ends it early (R44, R45). -/
structure Flight where
  job : Job
  cfg : TargetCfg
  part : Part
  attempt : Nat
  item : Nat
  reads : Nat
  marked : Bool
  wire : List BusSym
deriving DecidableEq, Repr

/-- A lane (R35, R39, R40). `bus` holds what went over its pins in the transaction that ended last, with the stop
condition or the release of the select that ended it (R44 to R46, R57). -/
structure Lane where
  settings : LaneSettings
  queue : List Job
  flight : Option Flight
  bus : List BusSym
deriving DecidableEq, Repr

/-! ## SAU, chapter 3 -/

/-- Which transitions of a line are edges (R59). -/
inductive EdgeSel where
  | rising | falling | both
deriving DecidableEq, Repr

/-- An open launch window: its duration and its set in launch order (R72). -/
structure Window where
  duration : Half
  set : List (Fin 8)
deriving DecidableEq, Repr

/-- A sync line (R59 to R61, R72). `filtered` is the last level the filter passed, none before it has settled;
`hold` says that a level is in its 1 us hold. -/
structure SyncLine where
  edge : EdgeSel
  window : Half
  counter : Half
  opened : Option Window
  filtered : Option Bool
  hold : Bool
deriving DecidableEq, Repr

/-- ONCE or EVERY (R65). -/
inductive ArmMode where
  | once | every
deriving DecidableEq, Repr

/-- An entry of the arm list (R65). -/
structure ArmEntry where
  group : Fin 8
  line : Line
  skip : Byte
  countdown : Byte
  mode : ArmMode
deriving DecidableEq, Repr

/-- The Sync and Arm Unit. -/
structure Sau where
  line0 : SyncLine
  line1 : SyncLine
  arm : List ArmEntry
deriving DecidableEq, Repr

/-! ## TLU, chapter 5 -/

/-- DIRECT or INVERSE (R103). -/
inductive Polarity where
  | direct | inverse
deriving DecidableEq, Repr

/-- The follower: target, register and the table of points (key, value) (R103). -/
structure Follower where
  target : Fin 16
  reg : Half
  points : List (Val × Val)
deriving DecidableEq, Repr

/-- The configuration fields of a loop (R103). -/
structure LoopCfg where
  line : Line
  period : Byte
  measTarget : Fin 16
  measReg : Half
  outTarget : Fin 16
  outReg : Half
  setpoint : Val
  step : Half
  narrow : Val
  wide : Val
  min : Val
  max : Val
  polarity : Polarity
  fast : Bool
  initialOutput : Val
  autostart : Bool
  follower : Option Follower
deriving DecidableEq, Repr

/-- The states of a loop (R104). -/
inductive LoopState where
  | stopped | tracking | settled | limited | faulted
deriving DecidableEq, Repr

/-- `cycle in flight` (R103). -/
inductive Cycle where
  | none | measure | output
deriving DecidableEq, Repr

/-- A loop entry (R103). `lastFollower` is reported absent while no follower is configured. -/
structure LoopEntry where
  configured : Bool
  cfg : LoopCfg
  state : LoopState
  output : Val
  lastFollower : Val
  lastMeasure : Option Val
  edgeCount : Nat
  cycle : Cycle
  stale : Bool
  skipSeen : Bool
  jobsOut : Nat
deriving DecidableEq, Repr

/-! ## PSC, chapters 6 and 7 -/

/-- What a VALID directory entry shows (R135). -/
structure SlotInfo where
  label : Label
  count : Half
  length : Half
deriving DecidableEq, Repr

/-- The state of a slot; label, record count and payload length are present only in VALID (R135). -/
inductive SlotState where
  | blank
  | valid (info : SlotInfo)
  | invalid
  | busy
deriving DecidableEq, Repr

/-- A directory entry (R135). -/
structure DirEntry where
  state : SlotState
  isProtected : Bool
  isLocked : Bool
deriving DecidableEq, Repr

/-- The kinds of store operation with what each carries (R148). -/
inductive StoreKind where
  | save (g : Fin 8) (slot : Fin 32) (label : Label)
  | load (slot : Fin 32) (g : Fin 8)
  | erase (slot : Fin 32)
  | setupSave
  | lock (slot : Fin 32)
deriving DecidableEq, Repr

/-- A store operation: its origin is the tag of its request, or internal (none) (R148). `seq` numbers acceptances, so
that R172 can answer cancelled operations oldest first. -/
structure StoreOp where
  kind : StoreKind
  origin : Option Byte
  seq : Nat
deriving DecidableEq, Repr

/-- An erase or program under way: its operation, the bytes captured for the array (none for an ERASE) and, for a
save, what the directory will show (R153, R154). -/
structure Work where
  op : StoreOp
  image : List Byte
  info : Option SlotInfo
deriving DecidableEq, Repr

/-- A suspended operation: an erase, or a program with the pages still to be programmed (R166, R167). -/
inductive Suspended where
  | erase (w : Work)
  | program (w : Work) (pages : List (Fin 16))
deriving DecidableEq, Repr

/-- The store engine in its eight states (R149). In `programming` the head of `pages` is the page being programmed. -/
inductive Engine where
  | idle
  | erasing (w : Work)
  | programming (w : Work) (pages : List (Fin 16))
  | reading (op : StoreOp)
  | suspendedErase (w : Work)
  | suspendedProgram (w : Work) (pages : List (Fin 16))
  | readingUnderSuspend (op : StoreOp) (susp : Suspended)
  | fusing (op : StoreOp) (slot : Fin 32)
deriving DecidableEq, Repr

/-- The Profile Store Controller's RAM state. -/
structure Psc where
  dir : Table DirEntry 32
  frozen : Bool
  queue : List StoreOp
  engine : Engine
  guard : Bool
  suspending : Bool
  uid : BitVec 64
  accepted : Nat
deriving DecidableEq, Repr

/-- The non-volatile array: slots 0..31 and the setup area as cells (unit * 4096 + offset, byte), the lock bits and
the identifier (R129). An unlisted address reads 0xFF. -/
structure Nv where
  mem : List Host.Cell
  locks : Table Bool 32
  id : BitVec 64
deriving DecidableEq, Repr

/-! ## SUC, chapter 8 -/

/-- The start phase (R174). -/
inductive Phase where
  | starting | running
deriving DecidableEq, Repr

/-- What began the current or last start sequence (R174). -/
inductive Cause where
  | power | pin | request
deriving DecidableEq, Repr

/-- What the last start found in the setup area (R174). -/
inductive SetupStatus where
  | notRead | applied | blank | invalid
deriving DecidableEq, Repr

/-- A start designation that names a slot (R174). -/
structure Designation where
  slot : Fin 32
  line : Line
  skip : Byte
deriving DecidableEq, Repr

/-- The autostart result of a loop (R177, R182). -/
inductive Autostart where
  | notMarked
  | started
  | refused (st : Status)
deriving DecidableEq, Repr

/-- The start result (R177). -/
inductive StartResult where
  | none
  | armed (d : Designation) (count : Half) (label : Label)
  | slotBlank
  | slotInvalid
deriving DecidableEq, Repr

/-- The start report (R174). -/
structure StartReport where
  cause : Cause
  setup : SetupStatus
  autostart : Table (Option Autostart) 4
  result : Option StartResult
deriving DecidableEq, Repr

/-- Which step of the start sequence is under way (R178 to R184): the rebuild, the read of the setup area, the
internal load, the fifth step with the start result it will report, or none (it has ended, or RESETn holds the part). -/
inductive Stage where
  | rebuild | setupRead | load | over
  | due (r : StartResult)
deriving DecidableEq, Repr

/-- The Start-Up Controller. `fresh` says that no start sequence has begun since the supply came up (R174). -/
structure Suc where
  phase : Phase
  cause : Cause
  setup : SetupStatus
  designation : Option Designation
  report : StartReport
  stage : Stage
  fresh : Bool
deriving DecidableEq, Repr

/-- The levels of the input pins and the supply. -/
structure Pins where
  power : Bool
  resetn : Bool
  straps : Straps
  sync0 : Bool
  sync1 : Bool
deriving DecidableEq, Repr

/-- The whole part, with the model's own fields: the counter of free values, the number of notices of the step under way
that one raised now arrives together with, and the queue of commands. -/
structure State where
  pins : Pins
  hpt : Hpt
  gtb : Gtb
  lsq : Table Account 8
  tgt : Table TargetEntry 16
  lanes : Table Lane 4
  sau : Sau
  tlu : Table LoopEntry 4
  psc : Psc
  suc : Suc
  nv : Nv
  fresh : Nat
  raised : Nat
  pending : List Instr
deriving DecidableEq, Repr

/-- Reasons to stop with a fault: none. The spec describes no event that stops the part: a request that cannot be
done is answered with a status, and every failure is state (R49, R84, R120, R155). Nothing raises a fault. -/
inductive Fault where
deriving DecidableEq, Repr

/-- Reasons to refuse a command. -/
inductive Refusal where
  /-- A command that has no meaning yet, by its mnemonic. Raised by exec's refused arms only; safe. No arm is. -/
  | notModelled (mnemonic : String)
deriving DecidableEq, Repr

/-! ## Reset values -/

/-- An EMPTY group entry (R3, R27). -/
def GroupEntry.reset : GroupEntry where
  state := .empty
  records := []
  pins := 0
  lastOutcome := .none
  late := false
  overrunSeen := false
  done := 0
  failed := 0
  skipped := 0
  withdrawn := 0
  firstFailure := none
  launchEdge := none

/-- R27: every group EMPTY, 256 records free. -/
def Gtb.reset : Gtb where
  groups := Vector.replicate 8 GroupEntry.reset
  free := Config.poolSize

/-- R77: pending 0, both flags clear. -/
def Account.reset : Account := ⟨0, false, false⟩

/-- R30. -/
def TargetEntry.reset : TargetEntry where
  cfg :=
    { enabled := false, lane := 0, address := .i2c 0x08#8, regWidth := .one, dataWidth := .one, autoInc := false,
      verify := false, retries := 0, timeout := some 10#8 }
  fault := none

/-- R35, R40: I2C at 400 kHz, IDLE with an empty queue. -/
def Lane.reset : Lane := ⟨.i2c .khz400, [], none, []⟩

/-- R59, R61, R75; the filter settles on the pin's level (R60). -/
def SyncLine.reset : SyncLine where
  edge := .rising
  window := 0#16
  counter := 0#16
  opened := none
  filtered := none
  hold := true

/-- R75. -/
def Sau.reset : Sau := ⟨SyncLine.reset, SyncLine.reset, []⟩

/-- R103: every field 0, except period 1, step 1, SYNC0, DIRECT. -/
def LoopCfg.reset : LoopCfg where
  line := .sync0
  period := 1#8
  measTarget := 0
  measReg := 0#16
  outTarget := 0
  outReg := 0#16
  setpoint := 0#32
  step := 1#16
  narrow := 0#32
  wide := 0#32
  min := 0#32
  max := 0#32
  polarity := .direct
  fast := false
  initialOutput := 0#32
  autostart := false
  follower := none

/-- R103. -/
def LoopEntry.reset : LoopEntry where
  configured := false
  cfg := LoopCfg.reset
  state := .stopped
  output := 0#32
  lastFollower := 0#32
  lastMeasure := none
  edgeCount := 0
  cycle := .none
  stale := false
  skipSeen := false
  jobsOut := 0

/-- R148, R149, R169, R173. The directory stands so until the rebuild has read it (DESIGN CHOICE, log entry 20). The copy of
the unique identifier, for which the spec gives no reset value, is 0 while the part is held, without its supply or with
RESETn low (DESIGN CHOICE, log entry 40); a start reads it from the fuse row in its first step (R136). -/
def Psc.reset : Psc where
  dir := Vector.replicate 32 ⟨.blank, true, false⟩
  frozen := false
  queue := []
  engine := .idle
  guard := false
  suspending := false
  uid := 0#64
  accepted := 0

/-- R174: a start sequence has begun with the cause given. -/
def Suc.begun (c : Cause) : Suc where
  phase := .starting
  cause := c
  setup := .notRead
  designation := none
  report := ⟨c, .notRead, Vector.replicate 4 none, none⟩
  stage := .rebuild
  fresh := false

/-- R199, at the rate given. -/
def Hpt.reset (b : Baud) : Hpt where
  rx := .settling
  gapTimer := true
  outstanding := []
  replies := []
  notices := []
  lost := false
  sending := none
  baud := b
  cut := .clear

/-- The array before its first use: wholly erased (DESIGN CHOICE, log entry 7), lock bits clear as delivered (R131). -/
def Nv.delivered : Nv where
  mem := []
  locks := Vector.replicate 32 false
  id := Config.uniqueId

/-- The part right after power-on reset: the supply is up, RESETn is high, and the start sequence has begun with
cause POWER and the fuse row read (R136, R178, R179). Pin levels: DESIGN CHOICE, log entry 8. -/
def State.reset : State where
  pins := ⟨true, true, ⟨false, false⟩, false, false⟩
  hpt := Hpt.reset .b115200
  gtb := Gtb.reset
  lsq := Vector.replicate 8 Account.reset
  tgt := Vector.replicate 16 TargetEntry.reset
  lanes := Vector.replicate 4 Lane.reset
  sau := Sau.reset
  tlu := Vector.replicate 4 LoopEntry.reset
  psc := { Psc.reset with uid := Nv.delivered.id }
  suc := Suc.begun .power
  nv := Nv.delivered
  fresh := 0
  raised := 0
  pending := []

end Sys2Proof.Machine
end

