-- ==== Sys2Proof/Machine/Bytes.lean ====
section
/-! DEFINITION. Items and codes on the wire and in the array (10.1, 10.3), and the two check codes (10.7). -/

namespace Sys2Proof.Machine

/-! ## Items (R200): least significant byte first -/

/-- A yes/no flag: 0 no, 1 yes. -/
def flagByte (b : Bool) : Byte := if b then 1#8 else 0#8

/-- A number carried in one byte. -/
def natByte (n : Nat) : Byte := BitVec.ofNat 8 n

/-- The two bytes of an item, least significant first. -/
def halfBytes (x : Half) : List Byte := [x.setWidth 8, (x >>> 8).setWidth 8]

/-- A number carried in two bytes. -/
def natHalf (n : Nat) : List Byte := halfBytes (BitVec.ofNat 16 n)

/-- The four bytes of an item, least significant first. -/
def valBytes (x : Val) : List Byte :=
  [x.setWidth 8, (x >>> 8).setWidth 8, (x >>> 16).setWidth 8, (x >>> 24).setWidth 8]

/-- The eight bytes of the unique identifier, least significant first. -/
def idBytes (x : BitVec 64) : List Byte :=
  [x.setWidth 8, (x >>> 8).setWidth 8, (x >>> 16).setWidth 8, (x >>> 24).setWidth 8,
   (x >>> 32).setWidth 8, (x >>> 40).setWidth 8, (x >>> 48).setWidth 8, (x >>> 56).setWidth 8]

/-- An item that may be absent: a presence byte, then its bytes, sent as 0 when it is absent (R200). -/
def optional (size : Nat) : Option (List Byte) → List Byte
  | none => 0#8 :: List.replicate size 0#8
  | some bytes => 1#8 :: bytes

/-- The byte at an offset of a body. -/
def byteAt (l : List Byte) (o : Nat) : Byte := l.getD o 0#8

/-- The two-byte item at an offset. -/
def halfAt (l : List Byte) (o : Nat) : Half :=
  (byteAt l o).setWidth 16 ||| ((byteAt l (o + 1)).setWidth 16 <<< 8)

/-- The four-byte item at an offset. -/
def valAt (l : List Byte) (o : Nat) : Val :=
  (halfAt l o).setWidth 32 ||| ((halfAt l (o + 2)).setWidth 32 <<< 16)

/-- The 8-byte label at an offset. -/
def labelAt (l : List Byte) (o : Nat) : Label := Vector.ofFn fun i => byteAt l (o + i.val)

/-- `n` four-byte values from an offset on. -/
def valuesAt (l : List Byte) (o : Nat) : Nat → List Val
  | 0 => []
  | n + 1 => valAt l o :: valuesAt l (o + 4) n

/-- `n` pairs of four-byte values (key, then value) from an offset on. -/
def pointsAt (l : List Byte) (o : Nat) : Nat → List (Val × Val)
  | 0 => []
  | n + 1 => (valAt l o, valAt l (o + 4)) :: pointsAt l (o + 8) n

/-! ## Codes (10.3) -/

/-- Status codes (10.3.3). -/
def Status.byte : Status → Byte
  | .ok => 0x00#8 | .badFrame => 0x01#8 | .badTag => 0x02#8 | .tagInUse => 0x03#8 | .busy => 0x04#8
  | .starting => 0x05#8 | .unknownCode => 0x06#8 | .badLength => 0x07#8
  | .badArg => 0x10#8 | .wrongState => 0x11#8 | .emptyGroup => 0x12#8 | .poolFull => 0x13#8 | .groupPinned => 0x14#8
  | .targetInUse => 0x15#8 | .targetFaulted => 0x16#8 | .laneBusy => 0x17#8 | .notConfigured => 0x18#8
  | .nak => 0x20#8 | .timeout => 0x21#8
  | .slotProtected => 0x30#8 | .slotLocked => 0x31#8 | .frozen => 0x32#8 | .slotBlank => 0x33#8
  | .slotInvalid => 0x34#8 | .tooLarge => 0x35#8 | .storeFault => 0x36#8 | .aborted => 0x40#8

/-- Record reasons (10.3.3). -/
def Reason.byte : Reason → Byte
  | .nak => 1#8 | .timeout => 2#8 | .mismatch => 3#8 | .pollExpired => 4#8 | .badTarget => 5#8

/-- The record reason that a target's fault reason is. -/
def FaultReason.reason : FaultReason → Reason
  | .nak => .nak | .timeout => .timeout | .mismatch => .mismatch

/-- The end of a loop job in N.LOOP when the job was SKIPPED (10.3.3). -/
def skippedByte : Byte := 6#8

/-- Group states (10.3.4). -/
def GroupState.byte : GroupState → Byte
  | .empty => 0#8 | .opened => 1#8 | .ready => 2#8 | .armed => 3#8 | .launching => 4#8 | .loading => 5#8

/-- Outcomes (10.3.4). -/
def LaunchOutcome.byte : LaunchOutcome → Byte
  | .none => 0#8 | .applied => 1#8 | .torn => 2#8 | .aborted => 3#8 | .cut => 4#8

/-- Lines (10.3.4). -/
def lineByte : Line → Byte
  | .sync0 => 0#8 | .sync1 => 1#8

/-- Edge settings (10.3.4). -/
def EdgeSel.byte : EdgeSel → Byte
  | .rising => 0#8 | .falling => 1#8 | .both => 2#8

/-- Arm modes (10.3.4). -/
def ArmMode.byte : ArmMode → Byte
  | .once => 0#8 | .every => 1#8

/-- Loop states (10.3.4). -/
def LoopState.byte : LoopState → Byte
  | .stopped => 0#8 | .tracking => 1#8 | .settled => 2#8 | .limited => 3#8 | .faulted => 4#8

/-- `cycle in flight` (R204). -/
def Cycle.byte : Cycle → Byte
  | .none => 0#8 | .measure => 1#8 | .output => 2#8

/-- Engine states (10.3.4). -/
def Engine.byte : Engine → Byte
  | .idle => 0#8 | .erasing _ => 1#8 | .programming _ _ => 2#8 | .reading _ => 3#8 | .suspendedErase _ => 4#8
  | .suspendedProgram _ _ => 5#8 | .readingUnderSuspend _ _ => 6#8 | .fusing _ _ => 7#8

/-- Slot states (10.3.4). -/
def SlotState.byte : SlotState → Byte
  | .blank => 0#8 | .valid _ => 1#8 | .invalid => 2#8 | .busy => 3#8

/-- Start phases (10.3.4). -/
def Phase.byte : Phase → Byte
  | .starting => 0#8 | .running => 1#8

/-- Setup statuses (10.3.4). -/
def SetupStatus.byte : SetupStatus → Byte
  | .notRead => 0#8 | .applied => 1#8 | .blank => 2#8 | .invalid => 3#8

/-- Reset causes (10.3.4). -/
def Cause.byte : Cause → Byte
  | .power => 0#8 | .pin => 1#8 | .request => 2#8

/-- Start results: NONE, ARMED, then the status codes (10.3.4). -/
def StartResult.byte : StartResult → Byte
  | .none => 0#8 | .armed _ _ _ => 1#8 | .slotBlank => Status.slotBlank.byte | .slotInvalid => Status.slotInvalid.byte

/-- Autostart results (10.3.4). -/
def Autostart.byte : Autostart → Byte
  | .notMarked => 0xF0#8 | .started => 0xF1#8 | .refused st => st.byte

/-- Job kinds of loop jobs (10.3.4). -/
def LoopJobKind.byte : LoopJobKind → Byte
  | .measure => 1#8 | .output => 2#8 | .follower => 3#8 | .outputSeed => 4#8 | .followerSeed => 5#8

/-- Job kinds (10.3.4). -/
def Job.kindByte : Job → Byte
  | .record _ _ _ => 0#8 | .loop _ k _ _ _ => k.byte | .read _ _ _ => 6#8

/-- The owner of a job in 2 bytes (R204). -/
def Job.ownerBytes : Job → List Byte
  | .record g i _ => [natByte g.val, natByte i]
  | .loop n _ _ _ _ => [natByte n.val, 0#8]
  | .read tag _ _ => [tag, 0#8]

/-- Register width in bytes (R30). -/
def RegWidth.bytes : RegWidth → Nat
  | .one => 1 | .two => 2

/-- Data width in bytes (R30). -/
def DataWidth.bytes : DataWidth → Nat
  | .one => 1 | .two => 2 | .four => 4

/-- A target address in one byte: the I2C address, or 0 select A, 1 select B (R200). -/
def Address.byte : Address → Byte
  | .i2c a => a | .selectA => 0#8 | .selectB => 1#8

/-- I2C speeds in kHz (R200). -/
def I2cSpeed.khz : I2cSpeed → Half
  | .khz100 => 100#16 | .khz400 => 400#16 | .khz1000 => 1000#16

/-- SPI speeds in kHz (R200). -/
def SpiSpeed.khz : SpiSpeed → Half
  | .mhz1 => 1000#16 | .mhz5 => 5000#16 | .mhz10 => 10000#16 | .mhz25 => 25000#16

/-- SPI modes (R200). -/
def SpiMode.byte : SpiMode → Byte
  | .mode0 => 0#8 | .mode3 => 3#8

/-- Polarity: 0 DIRECT, 1 INVERSE (R200). -/
def Polarity.byte : Polarity → Byte
  | .direct => 0#8 | .inverse => 1#8

/-! ## Check codes (R205) -/

/-- One byte into the CRC-16: generator 0x1021, most significant bit first. -/
def crc16Byte (c : Half) (b : Byte) : Half :=
  (List.range 8).foldl (fun c _ => if c.msb then (c <<< 1) ^^^ 0x1021#16 else c <<< 1) (c ^^^ (b.setWidth 16 <<< 8))

/-- CRC-16 of a frame, from the tag to the last body byte; the register starts at 0xFFFF. -/
def crc16 (l : List Byte) : Half := l.foldl crc16Byte 0xFFFF#16

/-- One byte into the CRC-32: generator 0x04C11DB7 in reflected form, least significant bit first. -/
def crc32Byte (c : Val) (b : Byte) : Val :=
  (List.range 8).foldl (fun c _ => if c.getLsbD 0 then (c >>> 1) ^^^ 0xEDB88320#32 else c >>> 1) (c ^^^ b.setWidth 32)

/-- CRC-32 of an image; the register starts at 0xFFFFFFFF, with a final exclusive-or with 0xFFFFFFFF. -/
def crc32 (l : List Byte) : Val := l.foldl crc32Byte 0xFFFFFFFF#32 ^^^ 0xFFFFFFFF#32

end Sys2Proof.Machine
end

