-- ==== Sys2Proof/Machine/Ops.lean ====
section
/-! DEFINITION. The named operations over the state: table entries, the array, and the Host Port's queues. -/

namespace Sys2Proof.Machine

/-! ## Entries of the blocks' tables -/

/-- The entry of group `g`. -/
def State.group (s : State) (g : Fin 8) : GroupEntry := s.gtb.groups[g]

/-- Replace the entry of group `g`. -/
def State.setGroup (s : State) (g : Fin 8) (e : GroupEntry) : State :=
  { s with gtb := { s.gtb with groups := s.gtb.groups.set g e } }

/-- The launch account of group `g` (R77). -/
def State.account (s : State) (g : Fin 8) : Account := s.lsq[g]

/-- Replace the account of group `g`. -/
def State.setAccount (s : State) (g : Fin 8) (a : Account) : State := { s with lsq := s.lsq.set g a }

/-- The target entry `t` (R30). -/
def State.target (s : State) (t : Fin 16) : TargetEntry := s.tgt[t]

/-- Replace the target entry `t`. -/
def State.setTarget (s : State) (t : Fin 16) (e : TargetEntry) : State := { s with tgt := s.tgt.set t e }

/-- Lane `l`. -/
def State.lane (s : State) (l : Fin 4) : Lane := s.lanes[l]

/-- Replace lane `l`. -/
def State.setLane (s : State) (l : Fin 4) (x : Lane) : State := { s with lanes := s.lanes.set l x }

/-- The loop entry `n` (R103). -/
def State.loop (s : State) (n : Fin 4) : LoopEntry := s.tlu[n]

/-- Replace the loop entry `n`. -/
def State.setLoop (s : State) (n : Fin 4) (e : LoopEntry) : State := { s with tlu := s.tlu.set n e }

/-- A sync line (R59). -/
def State.line (s : State) : Line → SyncLine
  | .sync0 => s.sau.line0
  | .sync1 => s.sau.line1

/-- Replace a sync line. -/
def State.setLine (s : State) (l : Line) (x : SyncLine) : State :=
  match l with
  | .sync0 => { s with sau := { s.sau with line0 := x } }
  | .sync1 => { s with sau := { s.sau with line1 := x } }

/-- Replace the arm list (R65). -/
def State.setArm (s : State) (l : List ArmEntry) : State := { s with sau := { s.sau with arm := l } }

/-- The directory entry of a slot (R135). -/
def State.slot (s : State) (i : Fin 32) : DirEntry := s.psc.dir[i]

/-- Replace the directory entry of a slot. -/
def State.setSlot (s : State) (i : Fin 32) (e : DirEntry) : State :=
  { s with psc := { s.psc with dir := s.psc.dir.set i e } }

/-- A slot takes a directory state; its guards stay (R137). -/
def State.setSlotState (s : State) (i : Fin 32) (x : SlotState) : State := s.setSlot i { s.slot i with state := x }

/-- The arm-list entry of a group, if it has one (R65). -/
def State.armEntry (s : State) (g : Fin 8) : Option ArmEntry := s.sau.arm.find? (·.group == g)

/-! ## The record pool (R1, R2) -/

/-- A group takes a record list: the records it gives up return to the free set, those it takes leave it. Every
change of the number of a group's records goes through here. -/
def State.setRecords (s : State) (g : Fin 8) (l : List Record) : State :=
  let e := s.group g
  { s with gtb :=
    { groups := s.gtb.groups.set g { e with records := l }, free := s.gtb.free + e.records.length - l.length } }

/-- The launch fields as they stand in an EMPTY group (R3). -/
def GroupEntry.cleared (e : GroupEntry) : GroupEntry :=
  { e with
    lastOutcome := .none, late := false, overrunSeen := false, done := 0, failed := 0, skipped := 0, withdrawn := 0,
    firstFailure := none, launchEdge := none }

/-- A group enters EMPTY: it holds no records, and its launch fields are cleared, whatever the cause (R3). -/
def State.emptyGroup (s : State) (g : Fin 8) : State :=
  let s := s.setRecords g []
  s.setGroup g { (s.group g).cleared with state := .empty }

/-! ## The Host Port's queues (chapter 9) -/

/-- Places of the reply queue in use: queued replies and outstanding requests (R194). -/
def Hpt.placesUsed (h : Hpt) : Nat := h.replies.length + h.outstanding.length

/-- A reply joins the reply queue at its tail (R194). -/
def Hpt.enqueue (h : Hpt) (r : Reply) : Hpt := { h with replies := h.replies ++ [r] }

/-- A request's reply: its outstanding entry is removed in the step in which the reply joins the queue, with the
entry's code and the top bit set (R193, R194). A request whose entry a reset has removed gets none. -/
def Hpt.answer (h : Hpt) (tag : Byte) (body : List Byte) (full : Bool) : Hpt :=
  match h.outstanding.find? (·.tag == tag) with
  | none => h
  | some o =>
    { h with
      outstanding := h.outstanding.eraseP (·.tag == tag)
      replies := h.replies ++ [⟨tag, o.code ||| 0x80#8, body, full⟩] }

/-- A notice joins the notice queue ahead of its last `k`; when 16 wait, the one that comes last is dropped and the
notice-lost flag is set (R195). -/
def Hpt.join (h : Hpt) (n : Notice) (k : Nat) : Hpt :=
  let front := h.notices.length - k
  let l := h.notices.take front ++ n :: h.notices.drop front
  if h.notices.length < Config.maxNotices then { h with notices := l } else { h with notices := l.dropLast, lost := true }

/-- A notice may join ahead of one raised before it in the same step: not of its own block's, not of an N.FAULT, which
the same lane reported before, and not, an N.DONE, of an N.OVERRUN of its group (R195). -/
def Notice.mayPass (n m : Notice) : Bool :=
  n.code != m.code && m.code != 0x03#8 && !(n.code == 0x01#8 && m.code == 0x02#8 && n.payload.head? == m.payload.head?)

/-- How many notices at the tail of the queue, of the last `raised`, a notice may join ahead of (R195). -/
def Hpt.passable (h : Hpt) (raised : Nat) (n : Notice) : Nat :=
  ((h.notices.reverse.take raised).takeWhile n.mayPass).length

/-- The bytes of a frame (10.2): marker, tag, code, body length, body, CRC-16. -/
def frameBytes (tag code : Byte) (body : List Byte) : List Byte :=
  let checked := [tag, code] ++ natHalf body.length ++ body
  0xA5#8 :: checked ++ halfBytes (crc16 checked)

/-- The transmitter takes the head notice, whose frame carries the notice-lost flag, cleared in the same step (R195). -/
def Hpt.takeNotice (h : Hpt) : Hpt :=
  match h.notices with
  | [] => h
  | n :: ns =>
    { h with
      notices := ns, lost := false, sending := some ⟨frameBytes 0#8 n.code (flagByte h.lost :: n.payload), false⟩ }

/-- The transmitter's arbiter: when it is free it takes the oldest reply, else the head notice (R196). -/
def Hpt.arbitrate (h : Hpt) : Hpt :=
  match h.sending, h.replies with
  | some _, _ => h
  | none, r :: rs => { h with replies := rs, sending := some ⟨frameBytes r.tag r.code r.body, r.full⟩ }
  | none, [] => h.takeNotice

/-- With `now`, a free transmitter takes the head notice, no reply being queued; otherwise it takes nothing yet (R196). -/
def Hpt.atOnce (h : Hpt) (now : Bool) : Hpt :=
  if (h.sending.isNone && h.replies.isEmpty) && now then h.arbitrate else h

/-- A CUT notice has joined under a partial reset: a free transmitter leaves it for the reset's reply, and the frame being
sent may end inside the reset, when no reply waits (R206; log entry 5). An ABORTED one of a launch that the reset ends counts
as one (log entry 41). -/
def Hpt.cutRaised (h : Hpt) : Hpt := if h.sending.isSome && h.replies.isEmpty then { h with cut := .raised } else h

/-- The mark of a reset lasts to the end of the step after it. -/
def CutMark.aged : CutMark → CutMark
  | .raised => .past
  | .clear | .past => .clear

/-- A request is answered with a status and a result (R194). -/
def State.answer (s : State) (tag : Byte) (st : Status) (result : List Byte := []) : State :=
  { s with hpt := s.hpt.answer tag (st.byte :: result) false }

/-- A block raises a notice. Notices of different blocks that a step raises join in either order, by a FREE VALUE (R195;
log entry 38). Whether a transmitter that is free then, with no reply queued, takes the head notice before the rest of
the step is a FREE VALUE too (R196, R206; log entry 5); with `cut`, under a partial reset, it leaves it for the reset's
reply (R206). -/
def State.notify (s : State) (code : Byte) (payload : List Byte) (cut : Bool := false) : State :=
  let n : Notice := ⟨code, payload⟩
  let h := s.hpt.join n (atMost (s.hpt.passable s.raised n) (Config.noticePlace s.fresh))
  { s with
    hpt := if cut then h.cutRaised else h.atOnce (Config.noticeAtOnce s.fresh)
    raised := if s.hpt.notices.length < Config.maxNotices then s.raised + 1 else s.raised
    fresh := s.fresh + 1 }

/-- The notices raised so far in the step keep their places in the queue: one raised later in it has not arrived together
with them, and joins behind them (R195). -/
def State.noticesPlaced (s : State) : State := { s with raised := 0 }

/-- The end of a step: a free transmitter takes a frame (R196), the notices raised in the step are no longer new, and the
mark of a reset ages. -/
def State.arbitrated (s : State) : State :=
  { s with hpt := { s.hpt.arbitrate with cut := s.hpt.cut.aged }, raised := 0 }

/-- The part takes events: the supply is up and RESETn is high (R178). -/
def State.live (s : State) : Bool := s.pins.power && s.pins.resetn

/-- A command taken as a whole step: `f` when the part takes events, then the arbiter; nothing otherwise (R178). -/
def State.taking (s : State) (f : State → State) : Host.Outcome State Fault Refusal :=
  .next (if s.live then (f s).arbitrated else s)

/-- A free value is drawn: the counter moves on. -/
def State.drawn (s : State) : State := { s with fresh := s.fresh + 1 }

/-! ## The array (R129, R130) -/

/-- The canonical form: addresses strictly rising, and no cell equal to what an unlisted address reads as. -/
abbrev Memory.wf (m : List Host.Cell) : Prop := m.Pairwise (fun a b => a.1 < b.1) ∧ ∀ c ∈ m, c.2 ≠ 0xFF#8

/-- A byte of the array: an unlisted address reads 0xFF, erased (R129). -/
def Memory.read : List Host.Cell → Nat → Byte
  | [], _ => 0xFF#8
  | c :: m, a => if c.1 = a then c.2 else Memory.read m a

/-- A byte of the array takes a value; the canonical form is kept. -/
def Memory.write : List Host.Cell → Nat → Byte → List Host.Cell
  | [], a, b => if b = 0xFF#8 then [] else [(a, b)]
  | c :: m, a, b =>
    if a < c.1 then (if b = 0xFF#8 then c :: m else (a, b) :: c :: m)
    else if a = c.1 then (if b = 0xFF#8 then m else (a, b) :: m)
    else c :: Memory.write m a b

/-- Programming changes bits from 1 to 0 and never the reverse (R129). -/
def Memory.program (m : List Host.Cell) (a : Nat) (b : Byte) : List Host.Cell :=
  Memory.write m a (Memory.read m a &&& b)

/-- Program bytes at rising addresses. -/
def Memory.programAll (m : List Host.Cell) (a : Nat) : List Byte → List Host.Cell
  | [] => m
  | b :: l => Memory.programAll (Memory.program m a b) (a + 1) l

/-- Bytes at rising addresses. -/
def Memory.readAll (m : List Host.Cell) (a : Nat) : Nat → List Byte
  | 0 => []
  | n + 1 => Memory.read m a :: Memory.readAll m (a + 1) n

/-- The first address of a unit: slots 0..31, then the setup area (R129). -/
def unitBase (u : Nat) : Nat := u * Config.unitBytes

/-- Every byte of a unit reads 0xFF (R130). -/
def Memory.eraseUnit (m : List Host.Cell) (u : Nat) : List Host.Cell :=
  m.filter fun c => c.1 / Config.unitBytes != u

/-- Cells of a unit, by offset, put into the array, as the verify of an erase finds them (R130). -/
def Memory.residue (m : List Host.Cell) (u : Nat) : List (Nat × Byte) → List Host.Cell
  | [] => m
  | c :: l => Memory.residue (if c.1 < Config.unitBytes then Memory.write m (unitBase u + c.1) c.2 else m) u l

/-- The marker clear: the four marker bytes of the unit's page 0 are programmed to 0x00 (R130, R203). -/
def Memory.clearMarker (m : List Host.Cell) (u : Nat) : List Host.Cell :=
  Memory.programAll m (unitBase u) [0#8, 0#8, 0#8, 0#8]

/-- The 256 bytes of a page that an image wants: bytes beyond the image keep their erased value (R203). -/
def imagePage (image : List Byte) (p : Nat) : List Byte :=
  let l := (image.drop (p * Config.pageBytes)).take Config.pageBytes
  l ++ List.replicate (Config.pageBytes - l.length) 0xFF#8

/-- The first address of a page of a unit. -/
def pageBase (u p : Nat) : Nat := unitBase u + p * Config.pageBytes

end Sys2Proof.Machine
end

