-- ==== Sys2Proof/Machine/Operands.lean ====
section
/-! DEFINITION. Operand forms: from the items of a request, of a slot payload or of the setup record to the typed
fields of the blocks, with every range check, and back (10.3, 10.4, 10.5). -/

namespace Sys2Proof.Machine

/-! ## Numbers and enumerations in range -/

/-- A number below `n`, or out of range. -/
def inRange (n : Nat) (b : Byte) : Option (Fin n) := if h : b.toNat < n then some ⟨b.toNat, h⟩ else none

/-- A yes/no flag: a byte other than 0 and 1 is out of range (R200). -/
def flagOf (b : Byte) : Option Bool := if b = 0#8 then some false else if b = 1#8 then some true else none

/-- A line (10.3.4). -/
def lineOf (b : Byte) : Option Line := if b = 0#8 then some .sync0 else if b = 1#8 then some .sync1 else none

/-- An edge setting (10.3.4). -/
def edgeOf (b : Byte) : Option EdgeSel :=
  if b = 0#8 then some .rising else if b = 1#8 then some .falling else if b = 2#8 then some .both else none

/-- An arm mode (10.3.4). -/
def modeOf (b : Byte) : Option ArmMode := if b = 0#8 then some .once else if b = 1#8 then some .every else none

/-! ## Widths (R6) -/

/-- Register numbers a register width admits run up to this one (R6). -/
def RegWidth.last : RegWidth → Nat
  | .one => 255 | .two => 65535

/-- A register number lies within the register width. -/
def RegWidth.admits (w : RegWidth) (r : Half) : Bool := r.toNat ≤ w.last

/-- A value lies within the data width (R6). -/
def DataWidth.admits (w : DataWidth) (v : Val) : Bool := v.toNat < 2 ^ (8 * w.bytes)

/-- Register `reg + k * step` of a SCATTER (R9). -/
def Stride.register (st : Stride) (reg : Half) (k : Nat) : Half :=
  match st with
  | .up => reg + BitVec.ofNat 16 k
  | .stay => reg
  | .down => reg - BitVec.ofNat 16 k

/-- Every register of `reg + k * step`, k below n, lies within the register width (R9). -/
def Stride.rangeFits (st : Stride) (w : RegWidth) (reg : Half) (n : Nat) : Bool :=
  match st with
  | .up => reg.toNat + n ≤ w.last + 1
  | .stay => w.admits reg
  | .down => w.admits reg && n ≤ reg.toNat + 1

/-! ## Records (R6 to R12, R202) -/

/-- The step byte of a SCATTER (table 10.4). -/
def strideOf (b : Byte) : Option Stride :=
  if b = 1#8 then some .up else if b = 0#8 then some .stay else if b = 0xFF#8 then some .down else none

/-- The step byte of a SCATTER (table 10.4). -/
def Stride.byte : Stride → Byte
  | .up => 1#8 | .stay => 0#8 | .down => 0xFF#8

/-- The checks of a record that consult no target entry: form code, target number, count, step, POLL, WAIT and
SETPOINT ranges (R10 to R12, R15, R202; R158). Unused items are ignored (R202). -/
def recordOf (r : RawRecord) : Option Record :=
  match r.form.toNat, r.values with
  | 1, [v] => (inRange 16 r.which).map fun t => .single t r.word v
  | 2, vs =>
    if 2 ≤ vs.length ∧ vs.length ≤ 32 then (inRange 16 r.which).map fun t => .run t r.word vs else none
  | 3, vs =>
    if 1 ≤ vs.length ∧ vs.length ≤ 32 then
      (inRange 16 r.which).bind fun t => (strideOf r.small).map fun st => .scatter t r.word st vs
    else none
  | 4, [mask, expect] =>
    if 1 ≤ r.attempts.toNat ∧ r.attempts.toNat ≤ 1024 ∧ r.small ≠ 0#8 ∧ expect &&& ~~~mask = 0#32 then
      (inRange 16 r.which).map fun t => .poll t r.word mask expect r.attempts r.small
    else none
  | 5, [] => if r.word ≠ 0#16 then (inRange 4 r.which).map fun l => .wait l r.word else none
  | 6, [v] => (inRange 4 r.which).map fun n => .setpoint n v
  | _, _ => none

/-- The target a record names in its `target` field (R6). -/
def Record.target : Record → Option (Fin 16)
  | .single t _ _ | .run t _ _ | .scatter t _ _ _ | .poll t _ _ _ _ _ => some t
  | .wait _ _ | .setpoint _ _ => none

/-- A record's registers, values and form fit a target's configuration (R7 to R10, R14; made again at the lane head,
R41). WAIT and SETPOINT consult no target. -/
def Record.fits (r : Record) (c : TargetCfg) : Bool :=
  match r with
  | .single _ reg v => c.regWidth.admits reg && c.dataWidth.admits v
  | .run _ reg vs => Stride.up.rangeFits c.regWidth reg vs.length && vs.all c.dataWidth.admits && c.autoInc
  | .scatter _ reg st vs => st.rangeFits c.regWidth reg vs.length && vs.all c.dataWidth.admits
  | .poll _ reg mask expect _ _ => c.regWidth.admits reg && c.dataWidth.admits mask && c.dataWidth.admits expect
  | .wait _ _ | .setpoint _ _ => true

/-- A record as 8 fixed bytes and its values, unused bytes 0 (table 10.4, R202). -/
def Record.bytes : Record → List Byte
  | .single t reg v => [1#8, natByte t.val] ++ halfBytes reg ++ [0#8, 1#8, 0#8, 0#8] ++ valBytes v
  | .run t reg vs =>
    [2#8, natByte t.val] ++ halfBytes reg ++ [0#8, natByte vs.length, 0#8, 0#8] ++ vs.flatMap valBytes
  | .scatter t reg st vs =>
    [3#8, natByte t.val] ++ halfBytes reg ++ [st.byte, natByte vs.length, 0#8, 0#8] ++ vs.flatMap valBytes
  | .poll t reg mask expect attempts gap =>
    [4#8, natByte t.val] ++ halfBytes reg ++ [gap, 2#8] ++ halfBytes attempts ++ valBytes mask ++ valBytes expect
  | .wait l d => [5#8, natByte l.val] ++ halfBytes d ++ [0#8, 0#8, 0#8, 0#8]
  | .setpoint n v => [6#8, natByte n.val, 0#8, 0#8, 0#8, 1#8, 0#8, 0#8] ++ valBytes v

/-- The serialized size of a record (R133). -/
def Record.size : Record → Nat
  | .single _ _ _ | .setpoint _ _ => 12
  | .run _ _ vs | .scatter _ _ _ vs => 8 + 4 * vs.length
  | .poll _ _ _ _ _ _ => 16
  | .wait _ _ => 8

/-- The payload length of a record list (R133). -/
def payloadLength (l : List Record) : Nat := (l.map Record.size).sum

/-- The record items at an offset, `n` being the number of values that follow the 8 fixed bytes (table 10.4). -/
def rawRecordAt (l : List Byte) (o n : Nat) : RawRecord where
  form := byteAt l o
  which := byteAt l (o + 1)
  word := halfAt l (o + 2)
  small := byteAt l (o + 4)
  attempts := halfAt l (o + 6)
  values := valuesAt l (o + 8) n

/-- GROUP.EDIT's new list in an existing record (R20): the record with its editable value replaced, or none where the
form has none or the list does not fit it. The changed record is checked against the register width, the data width and
`auto-inc` of the target entry as it stands, as R14 says of every record that GROUP.EDIT changes; R20's table names the
data width (log entry 33). -/
def Record.edited (r : Record) (cfgs : Table TargetEntry 16) (vs : List Val) : Option Record :=
  match r, vs with
  | .single t reg _, [v] => if (Record.single t reg v).fits cfgs[t].cfg then some (.single t reg v) else none
  | .run t reg old, vs =>
    if vs.length = old.length ∧ (Record.run t reg vs).fits cfgs[t].cfg then some (.run t reg vs) else none
  | .scatter t reg st old, vs =>
    if vs.length = old.length ∧ (Record.scatter t reg st vs).fits cfgs[t].cfg then some (.scatter t reg st vs) else none
  | .wait l _, [v] => if 1 ≤ v.toNat ∧ v.toNat ≤ 65535 then some (.wait l (v.setWidth 16)) else none
  | .setpoint n _, [v] => some (.setpoint n v)
  | _, _ => none

/-! ## Target entries (R30, R32, R181) -/

/-- An address in either form: 0 and 1 are the selects, 0x08..0x77 the I2C addresses (R30, R200). -/
def addressOf (b : Byte) : Option Address :=
  if b = 0#8 then some .selectA
  else if b = 1#8 then some .selectB
  else if 0x08 ≤ b.toNat ∧ b.toNat ≤ 0x77 then some (.i2c b)
  else none

/-- A register width (R30). -/
def regWidthOf (b : Byte) : Option RegWidth := if b = 1#8 then some .one else if b = 2#8 then some .two else none

/-- A data width (R30). -/
def dataWidthOf (b : Byte) : Option DataWidth :=
  if b = 1#8 then some .one else if b = 2#8 then some .two else if b = 4#8 then some .four else none

/-- The fields of a target entry in their ranges, the address in either form and a `timeout` byte of 0 as absent
(R30, R200). -/
def targetCfgOf (r : RawTarget) : Option TargetCfg := do
  let enabled ← flagOf r.enabled
  let lane ← inRange 4 r.lane
  let address ← addressOf r.address
  let regWidth ← regWidthOf r.regWidth
  let dataWidth ← dataWidthOf r.dataWidth
  let autoInc ← flagOf r.autoInc
  let verify ← flagOf r.verify
  let retries ← inRange 4 r.retries
  return { enabled, lane, address, regWidth, dataWidth, autoInc, verify, retries,
           timeout := if r.timeout = 0#8 then none else some r.timeout }

/-- The address form and the presence of a timeout fit a lane's kind (R32). -/
def TargetCfg.fitsKind (c : TargetCfg) (settings : LaneSettings) : Bool :=
  match settings, c.address, c.timeout with
  | .i2c _, .i2c _, some _ => true
  | .spi _ _, .selectA, none | .spi _ _, .selectB, none => true
  | _, _, _ => false

/-- The nine configuration fields in table order (TARGET.SET, TARGET.QUERY and the setup record). -/
def TargetCfg.bytes (c : TargetCfg) : List Byte :=
  [flagByte c.enabled, natByte c.lane.val, c.address.byte, natByte c.regWidth.bytes, natByte c.dataWidth.bytes,
   flagByte c.autoInc, flagByte c.verify, natByte c.retries.val, c.timeout.getD 0#8]

/-- The nine items at an offset. -/
def rawTargetAt (l : List Byte) (o : Nat) : RawTarget where
  enabled := byteAt l o
  lane := byteAt l (o + 1)
  address := byteAt l (o + 2)
  regWidth := byteAt l (o + 3)
  dataWidth := byteAt l (o + 4)
  autoInc := byteAt l (o + 5)
  verify := byteAt l (o + 6)
  retries := byteAt l (o + 7)
  timeout := byteAt l (o + 8)

/-! ## Lane settings (R35, R36) -/

/-- A kind, one of its speeds, and a mode present for SPI and absent for I2C (R36). -/
def laneSettingsOf (r : RawLane) : Option LaneSettings :=
  if r.kind = 0#8 ∧ r.modePresent = 0#8 then
    if r.speed = 100#16 then some (.i2c .khz100)
    else if r.speed = 400#16 then some (.i2c .khz400)
    else if r.speed = 1000#16 then some (.i2c .khz1000)
    else none
  else if r.kind = 1#8 ∧ r.modePresent = 1#8 then do
    let mode ← if r.mode = 0#8 then some SpiMode.mode0 else if r.mode = 3#8 then some SpiMode.mode3 else none
    if r.speed = 1000#16 then some (.spi .mhz1 mode)
    else if r.speed = 5000#16 then some (.spi .mhz5 mode)
    else if r.speed = 10000#16 then some (.spi .mhz10 mode)
    else if r.speed = 25000#16 then some (.spi .mhz25 mode)
    else none
  else none

/-- Kind, speed, mode presence and mode (LANE.SET, R204). -/
def LaneSettings.bytes : LaneSettings → List Byte
  | .i2c sp => 0#8 :: halfBytes sp.khz ++ [0#8, 0#8]
  | .spi sp m => 1#8 :: halfBytes sp.khz ++ [1#8, m.byte]

/-- Two settings are of the same kind (R36). -/
def LaneSettings.sameKind : LaneSettings → LaneSettings → Bool
  | .i2c _, .i2c _ => true
  | .spi _ _, .spi _ _ => true
  | _, _ => false

/-- The lane items at an offset. -/
def rawLaneAt (l : List Byte) (o : Nat) : RawLane where
  kind := byteAt l o
  speed := halfAt l (o + 1)
  modePresent := byteAt l (o + 3)
  mode := byteAt l (o + 4)

/-! ## Loop configurations (R103, R105, R181) -/

/-- Keys strictly ascending (R103). -/
def ascending : List (Val × Val) → Bool
  | [] => true
  | [_] => true
  | p :: q :: l => p.1.toNat < q.1.toNat && ascending (q :: l)

/-- The follower items: absent, or a target, a register and 2..8 points with ascending keys; the items of an absent
follower are ignored (R103, R200; log entry 18). The outer option is the range check. -/
def followerOf (r : RawLoop) : Option (Option Follower) :=
  match flagOf r.followerPresent with
  | none => none
  | some false => some none
  | some true =>
    if 2 ≤ r.points.length ∧ r.points.length ≤ 8 ∧ ascending r.points then
      (inRange 16 r.followerTarget).map fun t => some ⟨t, r.followerReg, r.points⟩
    else none

/-- The follower does not name the output's own target and register (R105 check 4, R181). -/
def LoopCfg.followerApart (c : LoopCfg) : Bool :=
  match c.follower with
  | none => true
  | some f => !(f.target == c.outTarget && f.reg == c.outReg)

/-- The fields of a loop in the ranges R103 gives that consult no target entry: those R181 checks. -/
def loopCfgOf (r : RawLoop) : Option LoopCfg := do
  let line ← lineOf r.line
  let measTarget ← inRange 16 r.measTarget
  let outTarget ← inRange 16 r.outTarget
  let inverse ← flagOf r.polarity
  let fast ← flagOf r.fast
  let autostart ← flagOf r.autostart
  let follower ← followerOf r
  let cfg : LoopCfg :=
    { line, period := r.period, measTarget, measReg := r.measReg, outTarget, outReg := r.outReg,
      setpoint := r.setpoint, step := r.step, narrow := r.narrow, wide := r.wide, min := r.min, max := r.max,
      polarity := if inverse then .inverse else .direct, fast, initialOutput := r.initialOutput, autostart, follower }
  if 1 ≤ r.period.toNat ∧ r.period.toNat ≤ 16 ∧ 1 ≤ r.step.toNat ∧ r.narrow.toNat ≤ r.wide.toNat ∧
      r.min.toNat ≤ r.initialOutput.toNat ∧ r.initialOutput.toNat ≤ r.max.toNat ∧ r.min.toNat ≤ r.max.toNat ∧
      cfg.followerApart then
    some cfg
  else none

/-- The registers and values of a loop fit the widths of its targets as they stand (R105 check 3, R107 check 4). -/
def LoopCfg.fits (c : LoopCfg) (tgt : Table TargetEntry 16) : Bool :=
  tgt[c.measTarget].cfg.regWidth.admits c.measReg &&
  tgt[c.outTarget].cfg.regWidth.admits c.outReg &&
  tgt[c.outTarget].cfg.dataWidth.admits c.min &&
  tgt[c.outTarget].cfg.dataWidth.admits c.max &&
  tgt[c.outTarget].cfg.dataWidth.admits c.initialOutput &&
  match c.follower with
  | none => true
  | some f => tgt[f.target].cfg.regWidth.admits f.reg && f.points.all fun p => tgt[f.target].cfg.dataWidth.admits p.2

/-- The targets a loop names (R31). -/
def LoopCfg.targets (c : LoopCfg) : List (Fin 16) :=
  [c.measTarget, c.outTarget] ++ match c.follower with | none => [] | some f => [f.target]

/-- A key and its value. -/
def pointBytes (p : Val × Val) : List Byte := valBytes p.1 ++ valBytes p.2

/-- The follower part of the loop block: presence, target, register, point count and 8 point places (10.5.2). -/
def followerBytes : Option Follower → List Byte
  | none => List.replicate 69 0#8
  | some f =>
    [1#8, natByte f.target.val] ++ halfBytes f.reg ++ [natByte f.points.length] ++ f.points.flatMap pointBytes ++
      List.replicate (64 - 8 * f.points.length) 0#8

/-- The loop block of 10.5.2, 107 bytes. -/
def loopBlock (configured : Bool) (c : LoopCfg) : List Byte :=
  [flagByte configured, lineByte c.line, c.period, natByte c.measTarget.val] ++ halfBytes c.measReg ++
  [natByte c.outTarget.val] ++ halfBytes c.outReg ++ valBytes c.setpoint ++ halfBytes c.step ++
  valBytes c.narrow ++ valBytes c.wide ++ valBytes c.min ++ valBytes c.max ++
  [c.polarity.byte, flagByte c.fast] ++ valBytes c.initialOutput ++ [flagByte c.autostart] ++ followerBytes c.follower

/-- The loop block of a loop stored as not configured: its items are 0 but for `autostart` (R175, R203). -/
def unconfiguredBlock (autostart : Bool) : List Byte :=
  List.replicate 37 0#8 ++ [flagByte autostart] ++ List.replicate 69 0#8

/-- The loop items from `line` on at an offset, with `p` points (10.5.2). -/
def rawLoopAt (l : List Byte) (o p : Nat) : RawLoop where
  line := byteAt l o
  period := byteAt l (o + 1)
  measTarget := byteAt l (o + 2)
  measReg := halfAt l (o + 3)
  outTarget := byteAt l (o + 5)
  outReg := halfAt l (o + 6)
  setpoint := valAt l (o + 8)
  step := halfAt l (o + 12)
  narrow := valAt l (o + 14)
  wide := valAt l (o + 18)
  min := valAt l (o + 22)
  max := valAt l (o + 26)
  polarity := byteAt l (o + 30)
  fast := byteAt l (o + 31)
  initialOutput := valAt l (o + 32)
  autostart := byteAt l (o + 36)
  followerPresent := byteAt l (o + 37)
  followerTarget := byteAt l (o + 38)
  followerReg := halfAt l (o + 39)
  points := pointsAt l (o + 42) p

/-! ## Designations (R176) -/

/-- None, or a slot, a line and a skip in their ranges; the items of an absent designation are ignored (R176, R200).
The outer option is the range check. -/
def designationOf (r : RawDesignation) : Option (Option Designation) :=
  match flagOf r.present with
  | none => none
  | some false => some none
  | some true => do
    let slot ← inRange 32 r.slot
    let line ← lineOf r.line
    return some ⟨slot, line, r.skip⟩

/-- Presence, slot, line, skip. -/
def designationBytes (d : Option Designation) : List Byte :=
  optional 3 (d.map fun d => [natByte d.slot.val, lineByte d.line, d.skip])

/-- The designation items at an offset. -/
def rawDesignationAt (l : List Byte) (o : Nat) : RawDesignation :=
  ⟨byteAt l o, byteAt l (o + 1), byteAt l (o + 2), byteAt l (o + 3)⟩

end Sys2Proof.Machine
end

