-- ==== Sys2Proof/Machine/Flags.lean ====
section
/-! DEFINITION. What is read off the state rather than held in it: lane states and pins, targets in use, whose a job
is, and the byte layouts of launch fields. -/

namespace Sys2Proof.Machine

/-! ## Lanes (R38, R40) -/

/-- The three states of a lane (R40). -/
inductive LaneState where
  | idle | active | hold
deriving DecidableEq, Repr

/-- Lane states (10.3.4). -/
def LaneState.byte : LaneState → Byte
  | .idle => 0#8 | .active => 1#8 | .hold => 2#8

/-- The state of a lane is read off its job in flight (R40). -/
def Lane.state (x : Lane) : LaneState :=
  match x.flight with
  | none => .idle
  | some f => if f.part = .hold then .hold else .active

/-- Levels of a lane pin: driven, released to its pull-up or at high impedance, or an input. -/
inductive PinLevel where
  | low | high | released | input
deriving DecidableEq, Repr

/-- The levels of the five lane pins P0 to P4 while no transaction is in flight (R38). -/
def LaneSettings.idlePins : LaneSettings → Vector PinLevel 5
  | .i2c _ => #v[.released, .released, .released, .released, .released]
  | .spi _ .mode0 => #v[.low, .low, .input, .high, .high]
  | .spi _ .mode3 => #v[.high, .low, .input, .high, .high]

/-- The lane is I2C. -/
def LaneSettings.isI2c : LaneSettings → Bool
  | .i2c _ => true
  | .spi _ _ => false

/-! ## Whose a job is (R39) -/

/-- A record of group `g`. -/
def Job.ofGroup (g : Fin 8) : Job → Bool
  | .record g' _ _ => g' == g
  | .loop _ _ _ _ _ => false
  | .read _ _ _ => false

/-- A job of some loop. -/
def Job.ofTlu : Job → Bool
  | .loop _ _ _ _ _ => true
  | .record _ _ _ => false
  | .read _ _ _ => false

/-- A job of loop `n`. -/
def Job.ofLoop (n : Fin 4) : Job → Bool
  | .loop n' _ _ _ _ => n' == n
  | .record _ _ _ => false
  | .read _ _ _ => false

/-- A write of loop `n`: an output, follower or seed job, the jobs an adoption can make stale (R122, R123). -/
def Job.writeOfLoop (n : Fin 4) : Job → Bool
  | .loop n' k _ _ _ => n' == n && k != .measure
  | .record _ _ _ => false
  | .read _ _ _ => false

/-- A job that writes the output register of loop `n`: an output job or an output seed, the write whose landing R117,
R123 and R124 are about. -/
def Job.outputOfLoop (n : Fin 4) : Job → Bool
  | .loop n' k _ _ _ => n' == n && (k == .output || k == .outputSeed)
  | .record _ _ _ => false
  | .read _ _ _ => false

/-- The jobs of one kind queued on all lanes. -/
def State.queuedCount (s : State) (p : Job → Bool) : Nat :=
  ((upTo 4).map fun l => (s.lane l).queue.countP p).sum

/-- The jobs of one kind in flight, one for each lane at most. -/
def State.flightCount (s : State) (p : Job → Bool) : Nat :=
  (upTo 4).countP fun l => match (s.lane l).flight with | none => false | some f => p f.job

/-! ## Targets in use (R31) -/

/-- TRACKING, SETTLED and LIMITED are the running states (R104). -/
def LoopState.running : LoopState → Bool
  | .tracking | .settled | .limited => true
  | .stopped | .faulted => false

/-- ARMED and LAUNCHING: the states in which a group claims its targets (R31). -/
def GroupState.claims : GroupState → Bool
  | .armed | .launching => true
  | .empty | .opened | .ready | .loading => false

/-- A target is in use (R31). -/
def State.inUse (s : State) (t : Fin 16) : Bool :=
  (upTo 8).any (fun g => (s.group g).state.claims && (s.group g).records.any fun r => r.target == some t) ||
  (upTo 4).any fun n => (s.loop n).state.running && (s.loop n).cfg.targets.contains t

/-! ## Launch fields (10.6) -/

/-- Offsets 1 to 19 of the N.DONE payload: the launch fields of a group (10.6, R204). -/
def GroupEntry.launchBytes (e : GroupEntry) : List Byte :=
  [e.lastOutcome.byte, flagByte e.late ||| (flagByte e.overrunSeen <<< 1)] ++
  natHalf e.done ++ natHalf e.failed ++ natHalf e.skipped ++ natHalf e.withdrawn ++
  optional 4 (e.firstFailure.map fun f => [natByte f.index, f.reason.byte] ++ optional 1 (f.item.map fun i => [natByte i])) ++
  optional 3 (e.launchEdge.map fun x => halfBytes x.number ++ [lineByte x.line])

/-- A group's arm-list entry as one item: line, skip, countdown, mode (R204). -/
def armBytes (e : Option ArmEntry) : List Byte :=
  optional 4 (e.map fun e => [lineByte e.line, e.skip, e.countdown, e.mode.byte])

end Sys2Proof.Machine
end

