-- ==== Sys2Proof/Machine/HostPort.lean ====
section
/-! DEFINITION. The Host Port (chapter 9): the checks of a completed frame, identification and status, the transmitter
and the receive assembly's timer. -/

namespace Sys2Proof.Machine

/-! ## Characters on the line (R189) -/

/-- A character on the line, bit time by bit time: the start bit low, 8 data bits from the least significant on, no
parity, the stop bit high (R189). -/
def charLevels (c : Byte) : List Bool := [false] ++ (List.range 8).map (fun i => c.getLsbD i) ++ [true]

/-- What TXD carries: the idle level, high, while no frame is being sent; else the characters of the frame back to back
(R189). -/
def Hpt.txd (h : Hpt) : List Bool :=
  match h.sending with
  | none => [true]
  | some f => f.bytes.flatMap charLevels

/-- What 10 bit times on RXD come to: a character, or, with the stop bit low, a framing error (R189). -/
def heard : List Bool → Option Instr
  | [false, b0, b1, b2, b3, b4, b5, b6, b7, stop] =>
    some (if stop then .characterArrival (BitVec.ofBoolListLE [b0, b1, b2, b3, b4, b5, b6, b7]) else .uartFramingError)
  | _ => none

/-! ## Taking a request (R191 to R193) -/

/-- A refusal made by the HPT itself: it enters no table and reaches no owner (R191, R192). -/
def State.refuse (s : State) (h : ReqHead) (code : Byte) (st : Status) : State :=
  { s with hpt := s.hpt.enqueue ⟨h.tag, code ||| 0x80#8, [st.byte], false⟩ }

/-- The checks of R191 and R192 in their order, `lengthCheck` being check 4: none when the request is accepted. -/
def State.refusal (s : State) (h : ReqHead) (code : Byte) (lengthCheck : Option Status) : Option Status :=
  if !h.crcOk then some .badFrame
  else if h.tag = 0#8 then some .badTag
  else if s.hpt.outstanding.any (·.tag == h.tag) then some .tagInUse
  else if Config.maxOutstanding ≤ s.hpt.outstanding.length then some .busy
  else if lengthCheck.isSome then lengthCheck
  else if s.suc.phase = .starting ∧ code ≠ 0x70#8 ∧ code ≠ 0x71#8 then some .starting
  else none

/-- An accepted request holds an entry until its reply is queued (R193). -/
def State.accepted (s : State) (h : ReqHead) (code : Byte) : State :=
  { s with hpt := { s.hpt with outstanding := s.hpt.outstanding ++ [⟨h.tag, code⟩] } }

/-- A completed frame: dropped when no place of the reply queue is free, else refused, or accepted and passed to its
owner (R191 to R194). -/
def State.request (s : State) (h : ReqHead) (code : Byte) (lengthCheck : Option Status) (owner : State → State) : State :=
  if Config.replyPlaces ≤ s.hpt.placesUsed then s
  else match s.refusal h code lengthCheck with
    | some st => s.refuse h code st
    | none => owner (s.accepted h code)

/-! ## Identification and status (R197, R198) -/

/-- The PART.IDENT result, 25 bytes (R197, R204). -/
def identBytes (s : State) : List Byte :=
  halfBytes Config.vendorCode ++ halfBytes Config.partCode ++ [Config.revision] ++ idBytes s.psc.uid ++
  [32#8, 16#8] ++ natHalf 256 ++ [16#8] ++ natHalf 256 ++ [32#8] ++ [4#8, 16#8] ++ natHalf 600

/-- The PART.STATUS result, 19 bytes (R198). The store queue length, the outstanding count and the notices waiting take one
byte each, a size no rule gives (DEDUCED, log entry 15). -/
def statusBytes (s : State) : List Byte :=
  [s.suc.phase.byte, s.suc.setup.byte] ++ (upTo 8).map (fun g => (s.group g).state.byte) ++
  (upTo 4).map (fun l => (s.lane l).state.byte) ++
  [s.psc.engine.byte, natByte s.psc.queue.length, natByte s.hpt.outstanding.length, natByte s.hpt.notices.length,
   flagByte s.hpt.lost]

/-- PART.IDENT as its owner takes it. -/
def ownPartIdent (tag : Byte) (s : State) : State := s.answer tag .ok (identBytes s)

/-- PART.STATUS as its owner takes it: the count includes the request itself (R198). -/
def ownPartStatus (tag : Byte) (s : State) : State := s.answer tag .ok (statusBytes s)

/-- PART.IDENT (R197). -/
def reqPartIdent (h : ReqHead) (s : State) : State := s.request h 0x70#8 none (ownPartIdent h.tag)

/-- PART.STATUS (R198). -/
def reqPartStatus (h : ReqHead) (s : State) : State := s.request h 0x71#8 none (ownPartStatus h.tag)

/-- PART_IDENT. -/
def execPartIdent (h : ReqHead) (s : State) : Host.Outcome State Fault Refusal := s.taking (reqPartIdent h)

/-- PART_STATUS. -/
def execPartStatus (h : ReqHead) (s : State) : Host.Outcome State Fault Refusal := s.taking (reqPartStatus h)

/-! ## The receive assembly's other events (R190) -/

/-- A framing error: the partial frame is discarded, and the assembly settles with its timer started (R190). -/
def framingError (s : State) : State := { s with hpt := { s.hpt with rx := .settling, gapTimer := true } }

/-- UART_FRAMING_ERROR. -/
def execUartFramingError (s : State) : Host.Outcome State Fault Refusal := s.taking framingError

/-- The expiry of the gap timer, if it runs (R190). An overlong frame is refused BAD_FRAME when a place is free
(R191). -/
def gapExpired (s : State) : State :=
  if s.hpt.gapTimer then
    let t : State := { s with hpt := { s.hpt with rx := .hunting, gapTimer := false } }
    match s.hpt.rx with
    | .overlong tag code =>
      if Config.replyPlaces ≤ s.hpt.placesUsed then t else t.refuse ⟨tag, false⟩ code .badFrame
    | .settling | .hunting | .assembling _ => t
  else s

/-- GAP_TIMER_EXPIRY. -/
def execGapTimerExpiry (s : State) : Host.Outcome State Fault Refusal := s.taking gapExpired

end Sys2Proof.Machine
end

