-- ==== Sys2Proof/Machine/Loops.lean ====
section
/-! DEFINITION. The Trim Loop Unit (chapter 5): configuration, start and stop, the cycle, faults, adoption, and the
ends of its jobs. Lanes take what is appended here when the step settles them (Lanes.lean). -/

namespace Sys2Proof.Machine

/-! ## Jobs of a loop on the lanes -/

/-- A job joins the tail of a lane queue (R39). -/
def State.appendJob (s : State) (l : Fin 4) (j : Job) : State :=
  s.setLane l { s.lane l with queue := (s.lane l).queue ++ [j] }

/-- Queued jobs leave every lane from their positions, the others keeping their order (R56). -/
def State.dropQueued (s : State) (p : Job → Bool) : State :=
  (upTo 4).foldl (fun s l => s.setLane l { s.lane l with queue := (s.lane l).queue.filter fun j => !p j }) s

/-- Every queued job of a loop is withdrawn, and each lowers `jobs out` (R56, R111). -/
def State.withdrawLoop (s : State) (n : Fin 4) : State :=
  let k := s.queuedCount (Job.ofLoop n)
  let s := s.dropQueued (Job.ofLoop n)
  s.setLoop n { s.loop n with jobsOut := (s.loop n).jobsOut - k }

/-- A loop appends a write to the lane of its target as the entry stands. -/
def State.appendWrite (s : State) (n : Fin 4) (k : LoopJobKind) (t : Fin 16) (reg : Half) (v : Val) : State :=
  s.appendJob (s.target t).cfg.lane (.loop n k t reg v)

/-! ## N.LOOP (R121, R204) -/

/-- The loop error e in 5 bytes: sign, then magnitude (R200). -/
def errorBytes (e : Int) : List Byte := flagByte (e < 0) :: valBytes (BitVec.ofNat 32 e.natAbs)

/-- The N.LOOP payload, 27 bytes: the error for SETTLED and LIMITED, the cause for FAULTED (R121, R204). -/
def loopNotice (n : Fin 4) (x : LoopEntry) (e : Option Int) (cause : Option (LoopJobKind × Fin 16 × Half × Byte)) :
    List Byte :=
  [natByte n.val, x.state.byte] ++ valBytes x.output ++ valBytes x.cfg.setpoint ++
  optional 4 (x.lastMeasure.map valBytes) ++ optional 5 (e.map errorBytes) ++
  optional 5 (cause.map fun (k, t, reg, b) => [k.byte, natByte t.val] ++ halfBytes reg ++ [b])

/-- N.LOOP joins the notice queue with the loop as it then stands (R121). -/
def State.notifyLoop (s : State) (n : Fin 4) (e : Option Int) (cause : Option (LoopJobKind × Fin 16 × Half × Byte)) :
    State :=
  s.notify 0x04#8 (loopNotice n (s.loop n) e cause)

/-! ## The arithmetic of a cycle (R114, R115, R119) -/

/-- The follower lookup among the points after `p`: the last whose key is not greater than `v`, else `p` (R119). -/
def lookupFrom (p : Val × Val) (v : Val) : List (Val × Val) → Val
  | [] => p.2
  | q :: l => if q.1.toNat ≤ v.toNat then lookupFrom q v l else lookupFrom p v l

/-- The follower lookup of an output value (R119). -/
def Follower.lookup (f : Follower) (v : Val) : Val :=
  match f.points with
  | [] => 0#32
  | p :: l => lookupFrom p v l

/-- The error of a measure, formed without wrapping (R114). -/
def LoopCfg.error (c : LoopCfg) (m : Val) : Int :=
  match c.polarity with
  | .direct => (c.setpoint.toNat : Int) - m.toNat
  | .inverse => (m.toNat : Int) - c.setpoint.toNat

/-- The delta of an adjustment (R115, step 1). -/
def LoopCfg.delta (c : LoopCfg) (e : Int) : Nat :=
  if c.fast ∧ 4 * c.wide.toNat < e.natAbs then 4 * c.step.toNat else c.step.toNat

/-- A value above `max` becomes `max`, and one below `min` becomes `min` (R115, step 3). -/
def LoopCfg.clamp (c : LoopCfg) (x : Int) : Val :=
  if (c.max.toNat : Int) < x then c.max
  else if x < (c.min.toNat : Int) then c.min
  else BitVec.ofNat 32 x.toNat

/-- The new output value of an adjustment (R115). -/
def LoopCfg.adjusted (c : LoopCfg) (output : Val) (e : Int) : Val :=
  c.clamp (if 0 < e then (output.toNat : Int) + c.delta e else (output.toNat : Int) - c.delta e)

/-! ## Starting (R107, R108) -/

/-- The target entries a loop names are enabled (R107, check 4). -/
def LoopCfg.targetsEnabled (c : LoopCfg) (tgt : Table TargetEntry 16) : Bool := c.targets.all fun t => tgt[t].cfg.enabled

/-- One of a loop's targets is faulted (R107, check 5). -/
def LoopCfg.targetsFaulted (c : LoopCfg) (tgt : Table TargetEntry 16) : Bool := c.targets.any fun t => tgt[t].fault.isSome

/-- The checks 2 to 6 of R107 on a loop entry. -/
def State.startRefusal (s : State) (n : Fin 4) : Option Status :=
  let x := s.loop n
  if x.state.running then some .wrongState
  else if !x.configured then some .notConfigured
  else if !(x.cfg.targetsEnabled s.tgt && x.cfg.fits s.tgt) then some .badArg
  else if x.cfg.targetsFaulted s.tgt then some .targetFaulted
  else if x.jobsOut ≠ 0 then some .laneBusy
  else none

/-- The entry of a loop that starts (R108, steps 1 to 3). -/
def LoopEntry.started (x : LoopEntry) : LoopEntry :=
  { x with
    output := x.cfg.initialOutput
    lastFollower := match x.cfg.follower with | none => x.lastFollower | some f => f.lookup x.cfg.initialOutput
    edgeCount := 0
    lastMeasure := none
    stale := false
    skipSeen := false
    state := .tracking
    cycle := .output
    jobsOut := match x.cfg.follower with | none => 1 | some _ => 2 }

/-- A loop starts with its seed jobs (R108). -/
def State.startLoop (s : State) (n : Fin 4) : State :=
  let x := (s.loop n).started
  let s := (s.setLoop n x).appendWrite n .outputSeed x.cfg.outTarget x.cfg.outReg x.cfg.initialOutput
  match x.cfg.follower with
  | none => s
  | some f => s.appendWrite n .followerSeed f.target f.reg x.lastFollower

/-! ## Stopping, faults and cancellation (R110, R120, R126, R127) -/

/-- The running part of a cycle ends: nothing is in flight for it, and `stale` is cleared. -/
def LoopEntry.cycleOver (x : LoopEntry) : LoopEntry := { x with cycle := .none, stale := false }

/-- The loop leaves its run: its queued jobs are withdrawn, and its cycle ends (R110, R120, R127). -/
def State.leaveRun (s : State) (n : Fin 4) (st : LoopState) : State :=
  let s := s.withdrawLoop n
  s.setLoop n { (s.loop n).cycleOver with state := st }

/-- A loop enters FAULTED (R120). -/
def State.faultLoop (s : State) (n : Fin 4) (k : LoopJobKind) (t : Fin 16) (reg : Half) (ending : Byte) : State :=
  (s.leaveRun n .faulted).notifyLoop n none (some (k, t, reg, ending))

/-- A loop stops: LOOP.STOP and PART.RESET LOOPS (R110, R127). -/
def State.stopLoop (s : State) (n : Fin 4) : State :=
  let s := s.leaveRun n .stopped
  s.setLoop n { s.loop n with edgeCount := 0 }

/-- A reset that reaches the lanes has cancelled a loop's jobs (R126). -/
def LoopEntry.cancelled (x : LoopEntry) : LoopEntry :=
  if x.state.running then { x.cycleOver with jobsOut := 0 } else { x with jobsOut := 0 }

/-! ## The cycle (R112 to R118) -/

/-- A loop takes an accepted edge of its line (R112). -/
def State.loopEdge (s : State) (line : Line) (n : Fin 4) : State :=
  let x := s.loop n
  if x.cfg.line = line ∧ x.state.running then
    if x.edgeCount + 1 < x.cfg.period.toNat then s.setLoop n { x with edgeCount := x.edgeCount + 1 }
    else if x.cycle = .none then
      (s.setLoop n { x with edgeCount := 0, cycle := .measure, jobsOut := 1 }).appendJob
        (s.target x.cfg.measTarget).cfg.lane (.loop n .measure x.cfg.measTarget x.cfg.measReg 0#32)
    else s.setLoop n { x with edgeCount := 0, skipSeen := true }
  else s

/-- The TLU takes an edge for every loop (R112). -/
def State.loopsEdge (s : State) (line : Line) : State := (upTo 4).foldl (fun s n => s.loopEdge line n) s

/-- The follower job an adjustment needs, with its value: a lookup that differs from `last follower value` (R116). -/
def LoopEntry.followerWrite (x : LoopEntry) (v : Val) : Option (Fin 16 × Half × Val) :=
  match x.cfg.follower with
  | none => none
  | some f => if f.lookup v = x.lastFollower then none else some (f.target, f.reg, f.lookup v)

/-- The writes of an adjustment (R116). -/
def State.appendAdjustment (s : State) (n : Fin 4) (v : Val) : State :=
  let x := s.loop n
  match x.followerWrite v with
  | none =>
    (s.setLoop n { x with cycle := .output, jobsOut := 1 }).appendWrite n .output x.cfg.outTarget x.cfg.outReg v
  | some (t, reg, w) =>
    ((s.setLoop n { x with cycle := .output, jobsOut := 2 }).appendWrite n .output x.cfg.outTarget x.cfg.outReg v).appendWrite
      n .follower t reg w

/-- A loop enters SETTLED or LIMITED, with N.LOOP, and its cycle ends (R114, R115). -/
def State.loopRests (s : State) (n : Fin 4) (st : LoopState) (e : Int) : State :=
  (s.setLoop n { (s.loop n).cycleOver with state := st }).notifyLoop n (some e) none

/-- An adjustment (R115): held at a limit, or the writes of R116. -/
def State.adjust (s : State) (n : Fin 4) (e : Int) : State :=
  let x := s.loop n
  let v := x.cfg.adjusted x.output e
  if v = x.output then
    if x.state = .limited then s.setLoop n x.cycleOver else s.loopRests n .limited e
  else s.appendAdjustment n v

/-- The decision on a measure (R114). -/
def State.decide (s : State) (n : Fin 4) (e : Int) : State :=
  let x := s.loop n
  match x.state with
  | .tracking | .limited => if e.natAbs ≤ x.cfg.narrow.toNat then s.loopRests n .settled e else s.adjust n e
  | .settled =>
    if e.natAbs ≤ x.cfg.wide.toNat then s.setLoop n x.cycleOver
    else (s.setLoop n { x with state := .tracking }).adjust n e
  | .stopped | .faulted => s

/-- A measure has succeeded (R113). -/
def State.measured (s : State) (n : Fin 4) (m : Val) : State :=
  let s := s.setLoop n { s.loop n with lastMeasure := some m }
  s.decide n ((s.loop n).cfg.error m)

/-- A job of the OUTPUT part has ended: the cycle ends with the last of them (R109, R118). -/
def LoopEntry.writeEnded (x : LoopEntry) : LoopEntry := if x.jobsOut = 0 then x.cycleOver else x

/-- A write of a cycle has landed: an output job (R117), a follower job (R118), or a seed, after which `output` and
`last follower value` hold the values written already (R109). An output seed that an adoption met in flight ends as R117
states, so that `output` is what landed last (R123, R124; DEDUCED, log entry 35). -/
def LoopEntry.landed (x : LoopEntry) (k : LoopJobKind) (v : Val) : LoopEntry :=
  match k with
  | .output => { x with output := v, state := if x.state = .limited then .tracking else x.state }
  | .follower => { x with lastFollower := v }
  | .outputSeed => { x with output := v }
  | .measure | .followerSeed => x

/-- How a loop job ends, cancellation and withdrawal apart (R53): success with the value read or written, failed with
a reason, SKIPPED, or dropped as stale. -/
inductive LoopEnd where
  | success (v : Val)
  | failed (r : Reason)
  | skipped
  | dropped
deriving DecidableEq, Repr

/-- The end of a loop job of the cycle in flight (R109, R113, R117, R118). -/
def State.cycleJobEnd (s : State) (n : Fin 4) (k : LoopJobKind) (t : Fin 16) (reg : Half) (e : LoopEnd) : State :=
  match e with
  | .failed r => s.faultLoop n k t reg r.byte
  | .skipped => s.faultLoop n k t reg skippedByte
  | .dropped => s.setLoop n (s.loop n).writeEnded
  | .success v =>
    if k = .measure then s.measured n v else s.setLoop n ((s.loop n).landed k v).writeEnded

/-- The TLU takes the report of a loop job's end; with no cycle in flight it is a leftover's, which only lowers
`jobs out` (R111). -/
def State.loopJobEnd (s : State) (n : Fin 4) (k : LoopJobKind) (t : Fin 16) (reg : Half) (e : LoopEnd) : State :=
  let s := s.setLoop n { s.loop n with jobsOut := (s.loop n).jobsOut - 1 }
  if (s.loop n).cycle = .none then s else s.cycleJobEnd n k t reg e

/-! ## Adoption and setpoint records (R122, R123, R125) -/

/-- The value written last to a register among the writes of a hand-on, in list order (R122). -/
def lastWritten (reg : Half) (writes : List (Half × Val)) : Option Val :=
  ((writes.filter fun w => w.1 == reg).getLast?).map (·.2)

/-- An adoption marks the cycle stale: a write of the loop is queued (R122), or its output job is in flight (R124, third
order; log entry 13). -/
def State.overtakes (s : State) (n : Fin 4) : Bool :=
  (s.loop n).cycle == .output &&
    (s.queuedCount (Job.writeOfLoop n) != 0 || s.flightCount (Job.outputOfLoop n) != 0)

/-- A loop takes the hand-on of a group write (R122). -/
def State.adopt (s : State) (t : Fin 16) (writes : List (Half × Val)) (n : Fin 4) : State :=
  let x := s.loop n
  match lastWritten x.cfg.outReg writes with
  | none => s
  | some v =>
    if x.state.running ∧ x.cfg.outTarget = t then
      s.setLoop n
        { x with output := v, state := .tracking, stale := x.stale || s.overtakes n }
    else s

/-- The LSQ hands a group write to the TLU (R86, R122). -/
def State.handOn (s : State) (t : Fin 16) (writes : List (Half × Val)) : State :=
  (upTo 4).foldl (fun s n => s.adopt t writes n) s

/-- A SETPOINT record at its lane head (R125). -/
def State.applySetpoint (s : State) (n : Fin 4) (v : Val) : State :=
  let x := s.loop n
  s.setLoop n
    { x with cfg := { x.cfg with setpoint := v }, state := if x.state = .settled then .tracking else x.state }

end Sys2Proof.Machine
end

