-- ==== Sys2Proof/Machine/Launch.lean ====
section
/-! DEFINITION. The Launch Sequencer (chapter 4): launches, record ends, completion. -/

namespace Sys2Proof.Machine

/-! ## Making a launch (R79 to R81) -/

/-- The lane a record goes to (R80). -/
def State.recordLane (s : State) : Record → Fin 4
  | .single t _ _ | .run t _ _ | .scatter t _ _ _ | .poll t _ _ _ _ _ => (s.target t).cfg.lane
  | .wait l _ => l
  | .setpoint n _ => if (s.loop n).configured then (s.target (s.loop n).cfg.outTarget).cfg.lane else 0

/-- The records of a group join the lane queues in the order of their indices (R81). -/
def State.appendRecords (s : State) (g : Fin 8) : Nat → List Record → State
  | _, [] => s
  | i, r :: l => (s.appendJob (s.recordLane r) (.record g i r)).appendRecords g (i + 1) l

/-- The group entry as a launch leaves it (R79, steps 1 to 3). -/
def GroupEntry.launched (e : GroupEntry) (edge : Option LaunchEdge) : GroupEntry :=
  { e.cleared with state := .launching, launchEdge := edge }

/-- A launch, whole: at an edge, or by GROUP.APPLY with no edge (R79). -/
def State.launch (s : State) (edge : Option LaunchEdge) (g : Fin 8) : State :=
  let e := s.group g
  ((s.setGroup g (e.launched edge)).setAccount g ⟨e.records.length, false, false⟩).appendRecords g 0 e.records

/-! ## Record ends and completion (R84, R85, R88 to R90) -/

/-- How a record ends (R84). -/
inductive RecordEnd where
  | done
  | failed (r : Reason) (item : Option Nat)
  | skipped
  | withdrawn
deriving DecidableEq, Repr

/-- One count rises; the first FAILED report fills `first failure` (R84, R85). -/
def GroupEntry.counted (x : GroupEntry) (index : Nat) (e : RecordEnd) : GroupEntry :=
  match e with
  | .done => { x with done := x.done + 1 }
  | .failed r item =>
    { x with failed := x.failed + 1, firstFailure := some (x.firstFailure.getD ⟨index, r, item⟩) }
  | .skipped => { x with skipped := x.skipped + 1 }
  | .withdrawn => { x with withdrawn := x.withdrawn + 1 }

/-- The outcome of a launch, by the first line that applies (R88). -/
def launchOutcome (a : Account) (x : GroupEntry) : LaunchOutcome :=
  if a.abortTaken then .aborted
  else if a.cut then .cut
  else if x.done = x.records.length then .applied
  else .torn

/-- A group leaves the window set of a line, if it is in it (R72, R89). -/
def SyncLine.without (x : SyncLine) (g : Fin 8) : SyncLine :=
  { x with opened := x.opened.map fun w => { w with set := w.set.filter fun g' => g' != g } }

/-- A completed group leaves its window set (R89). -/
def State.leaveWindows (s : State) (g : Fin 8) : State :=
  { s with sau := { s.sau with line0 := s.sau.line0.without g, line1 := s.sau.line1.without g } }

/-- The N.DONE payload, 20 bytes (10.6). -/
def doneNotice (g : Fin 8) (x : GroupEntry) : List Byte := natByte g.val :: x.launchBytes

/-- A group completes: outcome, state, window set and N.DONE in one step (R88 to R90). A launch with `cut` set completes
under the partial reset that set it (R99, R100). Its N.DONE is then left for the reset's reply, as R206 says of the outcome
CUT; that one with the outcome ABORTED, of an abort taken earlier in the launch, is left in the same way is the model's
choice (DESIGN CHOICE, log entry 41). -/
def State.complete (s : State) (g : Fin 8) : State :=
  let x := s.group g
  let y := { x with
    lastOutcome := launchOutcome (s.account g) x
    state := if (s.armEntry g).isSome then .armed else .ready }
  ((s.setGroup g y).leaveWindows g).notify 0x01#8 (doneNotice g y) (s.account g).cut

/-- The LSQ takes the report of a record's end (R84). A report for a group with nothing pending does not arise
(R84). -/
def State.recordEnd (s : State) (g : Fin 8) (index : Nat) (e : RecordEnd) : State :=
  let a := s.account g
  if a.pending = 0 then s
  else
    let s := (s.setGroup g ((s.group g).counted index e)).setAccount g { a with pending := a.pending - 1 }
    if a.pending = 1 then s.complete g else s

/-- Reports of several withdrawn records of a group. -/
def State.recordsWithdrawn (s : State) (g : Fin 8) : Nat → State
  | 0 => s
  | n + 1 => (s.recordEnd g 0 .withdrawn).recordsWithdrawn g n

end Sys2Proof.Machine
end

