-- ==== Sys2Proof/Machine/Lanes.lean ====
section
/-! DEFINITION. Targets and lanes (chapter 2): the dispatch check, transactions, attempts, the ends of jobs, the lane
events, the lanes' part of a reset, and the target and lane requests. -/

namespace Sys2Proof.Machine

/-! ## Bytes on the bus (R44, R45) -/

/-- A register number on the bus, most significant byte first (R44). -/
def RegWidth.busBytes (w : RegWidth) (r : Half) : List Byte :=
  match w with
  | .one => [r.setWidth 8]
  | .two => [(r >>> 8).setWidth 8, r.setWidth 8]

/-- The low `data width` bytes of a value, most significant byte first (R44). -/
def DataWidth.busBytes (w : DataWidth) (v : Val) : List Byte :=
  match w with
  | .one => [v.setWidth 8]
  | .two => [(v >>> 8).setWidth 8, v.setWidth 8]
  | .four => [(v >>> 24).setWidth 8, (v >>> 16).setWidth 8, (v >>> 8).setWidth 8, v.setWidth 8]

/-- A value read, its bytes most significant first (R44). -/
def busValue (l : List Byte) : Val := l.foldl (fun v b => (v <<< 8) ||| b.setWidth 32) 0#32

/-- The select line of an SPI target (R45); true is select B. -/
def Address.isSelectB : Address → Bool
  | .selectB => true
  | .i2c _ => false
  | .selectA => false

/-- Data bytes an I2C target sends, acknowledged but for the last (R44). -/
def i2cDataIn : Nat → List BusSym
  | 0 => []
  | 1 => [.takeNak]
  | n + 2 => .takeAck :: i2cDataIn (n + 1)

/-- A write transaction (R44, R45). -/
def writeWire (settings : LaneSettings) (c : TargetCfg) (reg : Half) (values : List Val) : List BusSym :=
  let bytes := c.regWidth.busBytes reg ++ values.flatMap c.dataWidth.busBytes
  match settings with
  | .i2c _ => [.start, .send (c.address.byte <<< 1)] ++ bytes.map .send ++ [.stop]
  | .spi _ _ =>
    [.assertSelect c.address.isSelectB, .send 0x2A#8] ++ bytes.map .send ++ [.releaseSelect c.address.isSelectB]

/-- A read transaction of `n` values (R44, R45). -/
def readWire (settings : LaneSettings) (c : TargetCfg) (reg : Half) (n : Nat) : List BusSym :=
  let regs := (c.regWidth.busBytes reg).map BusSym.send
  match settings with
  | .i2c _ =>
    [.start, .send (c.address.byte <<< 1)] ++ regs ++ [.repeatedStart, .send ((c.address.byte <<< 1) ||| 1#8)] ++
      i2cDataIn (n * c.dataWidth.bytes) ++ [.stop]
  | .spi _ _ =>
    [.assertSelect c.address.isSelectB, .send 0x2B#8] ++ regs ++ List.replicate (n * c.dataWidth.bytes) .take ++
      [.releaseSelect c.address.isSelectB]

/-- The symbol is a byte the part sends. -/
def BusSym.isSend : BusSym → Bool
  | .send _ => true
  | .start | .repeatedStart | .stop | .release | .takeAck | .takeNak | .assertSelect _ | .releaseSelect _ | .take => false

/-- What has gone over the bus when the part has sent one byte more than `k`: that byte is the last symbol (R44). -/
def sentThrough : Nat → List BusSym → List BusSym
  | _, [] => []
  | k, x :: w => if x.isSend then (if k = 0 then [x] else x :: sentThrough (k - 1) w) else x :: sentThrough k w

/-- A transaction whose next byte after `k` is not acknowledged: a stop condition at once, no further byte (R44). -/
def nakWire (k : Nat) (w : List BusSym) : List BusSym := sentThrough k w ++ [.stop]

/-- The part of a transaction that has gone over the bus when it has begun and has not ended; how far it had come is a
FREE VALUE, `k` (log entry 37). -/
def begunWire (k : Nat) (w : List BusSym) : List BusSym := w.take (1 + k % (w.length - 1))

/-- A transaction ended by a clock hold: SCL and SDA are released, and a stop condition is made (R46). -/
def holdWire (k : Nat) (w : List BusSym) : List BusSym := begunWire k w ++ [.release, .stop]

/-- How a reset ends a transaction: on I2C the lines are released and a stop condition is made, on SPI the select is
released (R57). -/
def LaneSettings.cutEnd (settings : LaneSettings) (c : TargetCfg) : List BusSym :=
  match settings with
  | .i2c _ => [.release, .stop]
  | .spi _ _ => [.releaseSelect c.address.isSelectB]

/-- A transaction cut by a reset (R57). -/
def cutWire (settings : LaneSettings) (c : TargetCfg) (w : List BusSym) (k : Nat) : List BusSym :=
  begunWire k w ++ settings.cutEnd c

/-! ## The job in flight -/

/-- The values of a record's items (R6). -/
def Record.values : Record → List Val
  | .single _ _ v => [v]
  | .run _ _ vs | .scatter _ _ _ vs => vs
  | .poll _ _ _ _ _ _ => []
  | .wait _ _ => []
  | .setpoint _ _ => []

/-- The register a transaction of a job starts at; `k` is the SCATTER item (R50). -/
def Job.register (j : Job) (k : Nat) : Half :=
  match j with
  | .record _ _ (.single _ reg _) | .record _ _ (.run _ reg _) | .record _ _ (.poll _ reg _ _ _ _) => reg
  | .record _ _ (.scatter _ reg st _) => st.register reg k
  | .record _ _ (.wait _ _) | .record _ _ (.setpoint _ _) => 0#16
  | .loop _ _ _ reg _ => reg
  | .read _ _ reg => reg

/-- The values a transaction of a job writes; `k` is the SCATTER item (R47, R50). -/
def Job.written (j : Job) (k : Nat) : List Val :=
  match j with
  | .record _ _ (.scatter _ _ _ vs) => (vs.drop k).take 1
  | .record _ _ r => r.values
  | .loop _ _ _ _ v => [v]
  | .read _ _ _ => []

/-- A job whose transactions are reads: a POLL, a loop measure, a read job (R47). -/
def Job.reads : Job → Bool
  | .record _ _ (.poll _ _ _ _ _ _) => true
  | .record _ _ _ => false
  | .loop _ k _ _ _ => k == .measure
  | .read _ _ _ => true

/-- The target a job names. -/
def Job.target : Job → Option (Fin 16)
  | .record _ _ r => r.target
  | .loop _ _ t _ _ => some t
  | .read _ t _ => some t

/-- The SCATTER item of a job in flight, for reports (R49, R85). -/
def Flight.scatterItem (f : Flight) : Option Nat :=
  match f.job with
  | .record _ _ (.scatter _ _ _ _) => some f.item
  | .record _ _ _ => none
  | .loop _ _ _ _ _ => none
  | .read _ _ _ => none

/-- The registers and values the first `k` items of a record wrote (R53, R86): the register range of R6 with its
values. -/
def Record.writes (r : Record) (k : Nat) : List (Half × Val) :=
  match r with
  | .single _ reg v => [(reg, v)]
  | .run _ reg vs => vs.mapIdx fun i v => (reg + BitVec.ofNat 16 i, v)
  | .scatter _ reg st vs => (vs.take k).mapIdx fun i v => (st.register reg i, v)
  | .poll _ _ _ _ _ _ => []
  | .wait _ _ => []
  | .setpoint _ _ => []

/-- The lane carries on with a job in flight. -/
def State.setFlight (s : State) (l : Fin 4) (f : Option Flight) : State := s.setLane l { s.lane l with flight := f }

/-- A transaction of the lane has ended: what went over its pins is held (R44 to R46). -/
def State.onBus (s : State) (l : Fin 4) (w : List BusSym) : State := s.setLane l { s.lane l with bus := w }

/-- An attempt starts: the write of a writing job, the read of a reading one (R48). -/
def State.startAttempt (s : State) (l : Fin 4) (f : Flight) : State :=
  let settings := (s.lane l).settings
  s.setFlight l (some (
    if f.job.reads then
      { f with part := .read, wire := readWire settings f.cfg (f.job.register f.item) 1 }
    else
      { f with part := .write, wire := writeWire settings f.cfg (f.job.register f.item) (f.job.written f.item) }))

/-- The verify read after a write (R47). -/
def State.startVerify (s : State) (l : Fin 4) (f : Flight) : State :=
  s.setFlight l (some { f with
    part := .verify
    wire := readWire (s.lane l).settings f.cfg (f.job.register f.item) (f.job.written f.item).length })

/-! ## Dispatch (R40 to R43, R55) -/

/-- The entry check of a job (R41, R43, R55): enabled, on this lane, and admitting the job's registers and values. -/
def Job.entryFits (j : Job) (c : TargetCfg) (l : Fin 4) : Bool :=
  c.enabled && c.lane == l &&
  match j with
  | .record _ _ r => r.fits c
  | .loop _ k _ reg v => c.regWidth.admits reg && (k == .measure || c.dataWidth.admits v)
  | .read _ _ reg => c.regWidth.admits reg

/-- The job passes its check: it is in flight with the entry's policies held, and its first transaction starts (R41). -/
def State.startJob (s : State) (l : Fin 4) (j : Job) (c : TargetCfg) : State :=
  s.startAttempt l ⟨j, c, .write, 1, 0, 0, false, []⟩

/-- A job the entry check turns away (R41, R43, R55). The failure of a SCATTER carries an item index (R53, R85, 10.6),
and no item was tried: which one it shows is a FREE VALUE among the record's items (DESIGN CHOICE, log entry 34). -/
def State.turnedAway (s : State) (j : Job) : State :=
  match j with
  | .record g i (.scatter _ _ _ vs) =>
    (s.recordEnd g i (.failed .badTarget (some (Config.turnedAwayItem s.fresh % vs.length)))).drawn
  | .record g i _ => s.recordEnd g i (.failed .badTarget none)
  | .loop n k t reg _ => s.loopJobEnd n k t reg (.failed .badTarget)
  | .read tag _ _ => s.answer tag .badArg

/-- A job that meets a faulted target (R41, R43, R55). -/
def State.skipped (s : State) (j : Job) : State :=
  match j with
  | .record g i _ => s.recordEnd g i .skipped
  | .loop n k t reg _ => s.loopJobEnd n k t reg .skipped
  | .read tag _ _ => s.answer tag .targetFaulted

/-- The check of a job against its target entry as it stands (R41, R43, R55). -/
def State.dispatchTo (s : State) (l : Fin 4) (j : Job) (t : Fin 16) : State :=
  let e := s.target t
  if !j.entryFits e.cfg l then s.turnedAway j
  else if e.fault.isSome then s.skipped j
  else s.startJob l j e.cfg

/-- A queued write of a loop that its TLU has marked stale (R43, R123). -/
def State.isStale (s : State) : Job → Bool
  | .loop n k _ _ _ => (s.loop n).stale && k != .measure
  | .record _ _ _ => false
  | .read _ _ _ => false

/-- The dispatch check at the head of a lane queue (R41 to R43, R55). -/
def State.dispatch (s : State) (l : Fin 4) (j : Job) : State :=
  match j with
  | .record _ _ (.wait _ _) => s.setFlight l (some ⟨j, TargetEntry.reset.cfg, .hold, 0, 0, 0, false, []⟩)
  | .record g i (.setpoint n v) => (s.applySetpoint n v).recordEnd g i .done
  | .record _ _ (.single t _ _) | .record _ _ (.run t _ _) | .record _ _ (.scatter t _ _ _)
  | .record _ _ (.poll t _ _ _ _ _) => s.dispatchTo l j t
  | .loop n k t reg _ => if s.isStale j then s.loopJobEnd n k t reg .dropped else s.dispatchTo l j t
  | .read _ t _ => s.dispatchTo l j t

/-- An IDLE lane takes its head job (R40). -/
def State.takeHead (s : State) (l : Fin 4) : State :=
  match (s.lane l).flight, (s.lane l).queue with
  | none, j :: q => (s.setLane l { s.lane l with queue := q }).dispatch l j
  | none, [] => s
  | some _, _ => s

/-- The lanes that can take a job: IDLE with a queue that is not empty (R40). -/
def State.readyLanes (s : State) : List (Fin 4) :=
  (upTo 4).filter fun l => (s.lane l).flight.isNone && !(s.lane l).queue.isEmpty

/-- Up to `n` jobs are taken, one by one, each by a lane that can take one: which, is a FREE VALUE (R53, R87; log entry
38). -/
def State.takeHeads : Nat → State → State
  | 0, s => s
  | n + 1, s =>
    match oneOf (Config.laneFirst s.fresh) s.readyLanes with
    | none => s
    | some l => State.takeHeads n (s.drawn.takeHead l)

/-- The IDLE lanes take jobs until each has one in flight or an empty queue (R40). No dispatch appends a job, so the
number of jobs queued bounds the jobs taken. -/
def State.settleLanes (s : State) : State := s.takeHeads (s.queuedCount fun _ => true)

/-- An IDLE lane takes its head jobs until one stays in flight, the queue is empty, or a record of group `g` is at its
head. -/
def State.takePast (g : Fin 8) (l : Fin 4) : Nat → State → State
  | 0, s => s
  | n + 1, s =>
    if (s.lane l).flight.isSome || (s.lane l).queue.head?.all (Job.ofGroup g) then s
    else State.takePast g l n (s.takeHead l)

/-! ## Ends of jobs (R49, R53) -/

/-- The N.FAULT payload, 8 bytes (R204). -/
def faultNotice (t : Fin 16) (lane : Fin 4) (r : FaultReason) (f : Flight) : List Byte :=
  [natByte t.val, natByte lane.val, r.reason.byte, f.job.kindByte] ++ f.job.ownerBytes ++
  optional 1 (f.scatterItem.map fun i => [natByte i])

/-- The TGT takes a fault report against the entry as it stands (R49). -/
def State.faultTarget (s : State) (t : Fin 16) (r : FaultReason) (f : Flight) : State :=
  let e := s.target t
  if e.fault.isSome then s
  else (s.setTarget t { e with fault := some r }).notify 0x03#8 (faultNotice t e.cfg.lane r f)

/-- The fault report for the target a job names. -/
def State.reportFault (s : State) (f : Flight) (r : FaultReason) : State :=
  match f.job.target with
  | none => s
  | some t => s.faultTarget t r f

/-- The hand-on of a group write of lane `l` reaches the TLU. With a loop job queued on the lane it comes before the lane
takes its next heads, or after them and before the lane's next record of the group ends: which, is a FREE VALUE (R86,
R124; log entry 39). -/
def State.handOver (s : State) (l : Fin 4) (g : Fin 8) (t : Fin 16) (writes : List (Half × Val)) : State :=
  if (s.lane l).queue.any Job.ofTlu then
    (if Config.handOnLate s.fresh then s.drawn.takePast g l (s.lane l).queue.length else s.drawn).handOn t writes
  else s.handOn t writes

/-- A record end on lane `l` with the hand-on of what the record wrote (R53, R86). -/
def State.recordOver (s : State) (l : Fin 4) (g : Fin 8) (i : Nat) (r : Record) (items : Nat) (e : RecordEnd) : State :=
  let s := s.recordEnd g i e
  match r.target with
  | none => s
  | some t => s.handOver l g t (r.writes items)

/-- A job whose transactions have all succeeded, a POLL and reads apart (R47, R50): the record is DONE, the loop
write has landed. -/
def State.writeDone (s : State) (l : Fin 4) (f : Flight) : State :=
  match f.job with
  | .record g i r => s.recordOver l g i r r.values.length .done
  | .loop n k t reg v => s.loopJobEnd n k t reg (.success v)
  | .read _ _ _ => s

/-- What a failed job's owner is told (R49, R50, R51, R55): of a SCATTER, the items before the failing one are handed
on; SINGLE and RUN are not handed on (R86). -/
def State.jobFailed (s : State) (l : Fin 4) (f : Flight) (r : FaultReason) : State :=
  match f.job with
  | .record g i (.scatter t reg st vs) =>
    s.recordOver l g i (.scatter t reg st vs) f.item (.failed r.reason (some f.item))
  | .record g i _ => s.recordEnd g i (.failed r.reason none)
  | .loop n k t reg _ => s.loopJobEnd n k t reg (.failed r.reason)
  | .read tag _ _ =>
    match r with
    | .nak => s.answer tag .nak
    | .timeout => s.answer tag .timeout
    | .mismatch => s

/-- A transaction has failed for good: the fault report, then the completion report; the lane is IDLE (R49, R53). -/
def State.failedForGood (s : State) (l : Fin 4) (f : Flight) (r : FaultReason) : State :=
  ((s.setFlight l none).reportFault f r).jobFailed l f r

/-- An attempt has failed: it is repeated in full while the attempts made do not exceed `retries` (R48). -/
def State.attemptFailed (s : State) (l : Fin 4) (f : Flight) (r : FaultReason) : State :=
  if f.attempt ≤ f.cfg.retries.val then s.startAttempt l { f with attempt := f.attempt + 1 }
  else s.failedForGood l f r

/-- A write with its verify has succeeded: the next SCATTER item, the early end of a marked SCATTER, or the end of the
job (R47, R50, R93). -/
def State.itemDone (s : State) (l : Fin 4) (f : Flight) : State :=
  match f.job with
  | .record g i (.scatter t reg st vs) =>
    if vs.length ≤ f.item + 1 then (s.setFlight l none).writeDone l f
    else if f.marked then (s.setFlight l none).recordOver l g i (.scatter t reg st vs) (f.item + 1) .withdrawn
    else s.startAttempt l { f with item := f.item + 1, attempt := 1 }
  | .record _ _ _ | .loop _ _ _ _ _ | .read _ _ _ => (s.setFlight l none).writeDone l f

/-- A POLL read has ended ACK with a value (R51, R93). -/
def State.pollRead (s : State) (l : Fin 4) (f : Flight) (g : Fin 8) (i : Nat) (mask expect : Val) (attempts : Half)
    (v : Val) : State :=
  if v &&& mask = expect then (s.setFlight l none).recordEnd g i .done
  else if f.marked then (s.setFlight l none).recordEnd g i .withdrawn
  else if f.reads + 1 < attempts.toNat then
    s.setFlight l (some { f with part := .hold, reads := f.reads + 1, wire := [] })
  else (s.setFlight l none).recordEnd g i (.failed .pollExpired none)

/-- A read has ended ACK with a value: of a POLL, a loop measure, or a read job (R51, R53, R55). -/
def State.readDone (s : State) (l : Fin 4) (f : Flight) (v : Val) : State :=
  match f.job with
  | .record g i (.poll _ _ mask expect attempts _) => s.pollRead l f g i mask expect attempts v
  | .record _ _ _ => s
  | .loop n k t reg _ => (s.setFlight l none).loopJobEnd n k t reg (.success v)
  | .read tag _ _ => (s.setFlight l none).answer tag .ok (valBytes v)

/-! ## Lane events -/

/-- How many data bytes the target sends in the transaction in progress (R44, R47): none in a write. -/
def Flight.dataIn (f : Flight) : Nat :=
  match f.part with
  | .write | .hold => 0
  | .read => f.cfg.dataWidth.bytes
  | .verify => (f.job.written f.item).length * f.cfg.dataWidth.bytes

/-- A transaction has ended ACK with the data bytes the target sent (R46, R47). -/
def State.acked (s : State) (l : Fin 4) (f : Flight) (data : List Byte) : State :=
  match f.part with
  | .write => if f.cfg.verify then s.startVerify l f else s.itemDone l f
  | .verify =>
    if data = (f.job.written f.item).flatMap f.cfg.dataWidth.busBytes then s.itemDone l f
    else s.attemptFailed l f .mismatch
  | .read => s.readDone l f (busValue data)
  | .hold => s

/-- A transaction ends (R46), and the lane holds what went over its pins (R44, R45). With no transaction in progress,
with data bytes of another number than the read takes, with NAK on an SPI lane, or for a byte the transaction does not
send, the event cannot occur and changes nothing (log entry 29). -/
def transactionEnd (l : Fin 4) (e : BusEnd) (s : State) : State :=
  match (s.lane l).flight with
  | none => s
  | some f =>
    if f.part = .hold then s
    else match e with
      | .ack data => if data.length = f.dataIn then ((s.onBus l f.wire).acked l f data).settleLanes else s
      | .nak k =>
        if (s.lane l).settings.isI2c ∧ k < f.wire.countP BusSym.isSend then
          ((s.onBus l (nakWire k f.wire)).attemptFailed l f .nak).settleLanes
        else s

/-- TRANSACTION_END. -/
def execTransactionEnd (l : Fin 4) (e : BusEnd) (s : State) : Host.Outcome State Fault Refusal :=
  s.taking (transactionEnd l e)

/-- The target held SCL low for longer than its `timeout` (R46); I2C lanes only, and only while a transaction is under
way (log entry 29). Where in the transaction is a FREE VALUE (log entry 37). -/
def clockHoldTimeout (l : Fin 4) (s : State) : State :=
  match (s.lane l).flight with
  | none => s
  | some f =>
    if f.part ≠ .hold ∧ (s.lane l).settings.isI2c then
      ((s.onBus l (holdWire (Config.cutPlace s.fresh l.val) f.wire)).drawn.attemptFailed l f .timeout).settleLanes
    else s

/-- CLOCK_HOLD_TIMEOUT. -/
def execClockHoldTimeout (l : Fin 4) (s : State) : Host.Outcome State Fault Refusal := s.taking (clockHoldTimeout l)

/-- The gap of a POLL has run out: the next poll read (R51). -/
def pollGapExpiry (l : Fin 4) (s : State) : State :=
  match (s.lane l).flight with
  | none => s
  | some f => if f.part = .hold ∧ f.job.reads then s.startAttempt l { f with attempt := 1 } else s

/-- POLL_GAP_EXPIRY. -/
def execPollGapExpiry (l : Fin 4) (s : State) : Host.Outcome State Fault Refusal := s.taking (pollGapExpiry l)

/-- The duration of a WAIT has run out: the record is DONE and the lane IDLE (R52). -/
def waitExpiry (l : Fin 4) (s : State) : State :=
  match (s.lane l).flight with
  | some ⟨.record g i (.wait _ _), _, _, _, _, _, _, _⟩ =>
    ((s.setFlight l none).recordEnd g i .done).settleLanes
  | some _ => s
  | none => s

/-- WAIT_EXPIRY. -/
def execWaitExpiry (l : Fin 4) (s : State) : Host.Outcome State Fault Refusal := s.taking (waitExpiry l)

/-! ## The lanes under a partial reset (R57, R99, R126) -/

/-- Every LAUNCHING group's account takes `cut` (R99). -/
def State.cutAccounts (s : State) : State :=
  (upTo 8).foldl (fun s g => if (s.group g).state = .launching then s.setAccount g { s.account g with cut := true } else s) s

/-- A job the cut reaches is reported withdrawn (R57); loop jobs are cancelled together (R126). -/
def State.cutJob (s : State) (j : Job) : State :=
  match j with
  | .record g i _ => s.recordEnd g i .withdrawn
  | .loop _ _ _ _ _ => s
  | .read tag _ _ => s.answer tag .aborted

/-- The job in flight is cut; the finished items of a SCATTER are handed on (R57, R86). -/
def State.cutFlight (s : State) (f : Flight) : State :=
  match f.job with
  | .record g i (.scatter t reg st vs) =>
    (s.recordEnd g i .withdrawn).handOn t ((Record.scatter t reg st vs).writes f.item)
  | .record _ _ _ | .loop _ _ _ _ _ | .read _ _ _ => s.cutJob f.job

/-- What a cut leaves of the last transaction on a lane: the one in flight ends cut; in HOLD and in IDLE there is none
(R57). -/
def Lane.cutBus (x : Lane) (k : Nat) : List BusSym :=
  match x.flight with
  | none => x.bus
  | some f => if f.part = .hold then x.bus else cutWire x.settings f.cfg f.wire k

/-- The jobs a lane has, the one in flight first. -/
def Lane.jobs (x : Lane) : List Job := (match x.flight with | none => [] | some f => [f.job]) ++ x.queue

/-- A lane under the reset makes its next report: of the job in flight, whose transaction is cut, then of each queued job;
`k` is the question of how far the transaction had come (R57). -/
def State.cutNext (k : Nat) (s : State) (l : Fin 4) : State :=
  let x := s.lane l
  match x.flight, x.queue with
  | some f, _ => (s.setLane l { x with flight := none, bus := x.cutBus (Config.cutPlace k l.val) }).cutFlight f
  | none, j :: q => (s.setLane l { x with queue := q }).cutJob j
  | none, [] => s

/-- An order in which lanes make their reports, `left l` being the number lane `l` has to make, and `pick` the choices. -/
def reportOrder (pick : Nat → Nat) : Nat → (Fin 4 → Nat) → List (Fin 4)
  | 0, _ => []
  | n + 1, left =>
    match oneOf (pick n) ((upTo 4).filter fun l => left l != 0) with
    | none => []
    | some l => l :: reportOrder pick n fun m => if m = l then left m - 1 else left m

/-- The order in which the lanes report under a reset, a FREE VALUE but for each lane's own order (R53, R57; log entry
38). -/
def State.cutOrder (s : State) : List (Fin 4) :=
  reportOrder (Config.cutFirst s.fresh) ((upTo 4).map fun l => (s.lane l).jobs.length).sum fun l => (s.lane l).jobs.length

/-- The loops' jobs are cancelled (R126). -/
def State.cancelLoops (s : State) : State := (upTo 4).foldl (fun s n => s.setLoop n (s.loop n).cancelled) s

/-- PART.RESET LANES, and the first part of SEQUENCER (R57, R99, R126). -/
def State.cutLanes (s : State) : State :=
  ((s.cutOrder.foldl (State.cutNext s.fresh) s.cutAccounts).cancelLoops).drawn

/-! ## Target requests (R32 to R34, R54) -/

/-- Another enabled entry has the same lane and address (R32, check 4; R181). -/
def State.addressTaken (s : State) (t : Fin 16) (c : TargetCfg) : Bool :=
  (upTo 16).any fun u => u != t && (s.target u).cfg.enabled && (s.target u).cfg.lane == c.lane && (s.target u).cfg.address == c.address

/-- TARGET.SET as its owner takes it (R32). -/
def ownTargetSet (tag t : Byte) (r : RawTarget) (s : State) : State :=
  match inRange 16 t with
  | none => s.answer tag .badArg
  | some t =>
    if s.inUse t then s.answer tag .targetInUse
    else match targetCfgOf r with
      | none => s.answer tag .badArg
      | some c =>
        if !c.fitsKind (s.lane c.lane).settings then s.answer tag .badArg
        else if c.enabled && s.addressTaken t c then s.answer tag .badArg
        else (s.setTarget t ⟨c, none⟩).answer tag .ok

/-- TARGET.SET (R32). -/
def reqTargetSet (h : ReqHead) (t : Byte) (r : RawTarget) (s : State) : State :=
  s.request h 0x20#8 none (ownTargetSet h.tag t r)

/-- TARGET_SET. -/
def execTargetSet (h : ReqHead) (t : Byte) (r : RawTarget) (s : State) : Host.Outcome State Fault Refusal :=
  s.taking (reqTargetSet h t r)

/-- The fields of R30 in table order, and `in use` (R34). -/
def targetBytes (s : State) (t : Fin 16) : List Byte :=
  let e := s.target t
  e.cfg.bytes ++ [flagByte e.fault.isSome] ++ optional 1 (e.fault.map fun r => [r.reason.byte]) ++ [flagByte (s.inUse t)]

/-- TARGET.QUERY as its owner takes it (R34). -/
def ownTargetQuery (tag t : Byte) (s : State) : State :=
  match inRange 16 t with
  | none => s.answer tag .badArg
  | some t => s.answer tag .ok (targetBytes s t)

/-- TARGET.QUERY (R34). -/
def reqTargetQuery (h : ReqHead) (t : Byte) (s : State) : State := s.request h 0x21#8 none (ownTargetQuery h.tag t)

/-- TARGET_QUERY. -/
def execTargetQuery (h : ReqHead) (t : Byte) (s : State) : Host.Outcome State Fault Refusal := s.taking (reqTargetQuery h t)

/-- TARGET.CLEAR as its owner takes it (R33). -/
def ownTargetClear (tag t : Byte) (s : State) : State :=
  match inRange 16 t with
  | none => s.answer tag .badArg
  | some t => (s.setTarget t { s.target t with fault := none }).answer tag .ok

/-- TARGET.CLEAR (R33). -/
def reqTargetClear (h : ReqHead) (t : Byte) (s : State) : State := s.request h 0x22#8 none (ownTargetClear h.tag t)

/-- TARGET_CLEAR. -/
def execTargetClear (h : ReqHead) (t : Byte) (s : State) : Host.Outcome State Fault Refusal := s.taking (reqTargetClear h t)

/-- TARGET.READ as its owner takes it: a read job behind what the lane holds (R54). -/
def ownTargetRead (tag t : Byte) (reg : Half) (s : State) : State :=
  match inRange 16 t with
  | none => s.answer tag .badArg
  | some t =>
    let e := s.target t
    if !(e.cfg.enabled && e.cfg.regWidth.admits reg) then s.answer tag .badArg
    else if e.fault.isSome then s.answer tag .targetFaulted
    else (s.appendJob e.cfg.lane (.read tag t reg)).settleLanes

/-- TARGET.READ (R54). -/
def reqTargetRead (h : ReqHead) (t : Byte) (reg : Half) (s : State) : State :=
  s.request h 0x23#8 none (ownTargetRead h.tag t reg)

/-- TARGET_READ. -/
def execTargetRead (h : ReqHead) (t : Byte) (reg : Half) (s : State) : Host.Outcome State Fault Refusal :=
  s.taking (reqTargetRead h t reg)

/-! ## Lane requests (R36, R37) -/

/-- An enabled target names the lane (R36, check 4). -/
def State.laneNamed (s : State) (l : Fin 4) : Bool :=
  (upTo 16).any fun t => (s.target t).cfg.enabled && (s.target t).cfg.lane == l

/-- LANE.SET as its owner takes it (R36). -/
def ownLaneSet (tag n : Byte) (r : RawLane) (s : State) : State :=
  match inRange 4 n with
  | none => s.answer tag .badArg
  | some l =>
    match laneSettingsOf r with
    | none => s.answer tag .badArg
    | some c =>
      let x := s.lane l
      if x.flight.isSome || !x.queue.isEmpty then s.answer tag .laneBusy
      else if !c.sameKind x.settings && s.laneNamed l then s.answer tag .targetInUse
      else (s.setLane l { x with settings := c }).answer tag .ok

/-- LANE.SET (R36). -/
def reqLaneSet (h : ReqHead) (n : Byte) (r : RawLane) (s : State) : State := s.request h 0x24#8 none (ownLaneSet h.tag n r)

/-- LANE_SET. -/
def execLaneSet (h : ReqHead) (n : Byte) (r : RawLane) (s : State) : Host.Outcome State Fault Refusal :=
  s.taking (reqLaneSet h n r)

/-- The progress number of a job in flight: SCATTER item, POLL reads made, or 0 (R204). -/
def Flight.progress (f : Flight) : Nat :=
  match f.job with
  | .record _ _ (.scatter _ _ _ _) => f.item
  | .record _ _ (.poll _ _ _ _ _ _) => f.reads
  | .record _ _ _ => 0
  | .loop _ _ _ _ _ => 0
  | .read _ _ _ => 0

/-- The LANE.QUERY result, 15 bytes (R37, R204). -/
def laneBytes (x : Lane) : List Byte :=
  x.settings.bytes ++ [x.state.byte] ++ natHalf x.queue.length ++
  optional 6 (x.flight.map fun f =>
    [f.job.kindByte] ++ f.job.ownerBytes ++ [natByte f.attempt] ++ natHalf f.progress)

/-- LANE.QUERY as its owner takes it (R37). -/
def ownLaneQuery (tag n : Byte) (s : State) : State :=
  match inRange 4 n with
  | none => s.answer tag .badArg
  | some l => s.answer tag .ok (laneBytes (s.lane l))

/-- LANE.QUERY (R37). -/
def reqLaneQuery (h : ReqHead) (n : Byte) (s : State) : State := s.request h 0x25#8 none (ownLaneQuery h.tag n)

/-- LANE_QUERY. -/
def execLaneQuery (h : ReqHead) (n : Byte) (s : State) : Host.Outcome State Fault Refusal := s.taking (reqLaneQuery h n)

end Sys2Proof.Machine
end

