-- ==== Sys2Proof/Machine/Groups.lean ====
section
/-! DEFINITION. The group requests (chapters 1, 3 and 4). -/

namespace Sys2Proof.Machine

/-! ## Building a group (R16 to R19) -/

/-- GROUP.OPEN as its owner takes it (R16). -/
def ownGroupOpen (tag g : Byte) (s : State) : State :=
  match inRange 8 g with
  | none => s.answer tag .badArg
  | some g =>
    if (s.group g).state ≠ .empty then s.answer tag .wrongState
    else (s.setGroup g { s.group g with state := .opened }).answer tag .ok

/-- GROUP.OPEN (R16). -/
def reqGroupOpen (h : ReqHead) (g : Byte) (s : State) : State := s.request h 0x10#8 none (ownGroupOpen h.tag g)

/-- GROUP_OPEN. -/
def execGroupOpen (h : ReqHead) (g : Byte) (s : State) : Host.Outcome State Fault Refusal := s.taking (reqGroupOpen h g)

/-- The record of a GROUP.ADD, checked for its form and against the target entry as it stands (R7 to R12, R14, R15,
R202). -/
def State.recordTaken (s : State) (r : RawRecord) : Option Record :=
  match recordOf r with
  | none => none
  | some x =>
    match x.target with
    | none => some x
    | some t => if x.fits (s.target t).cfg then some x else none

/-- GROUP.ADD as its owner takes it (R17). -/
def ownGroupAdd (tag g : Byte) (r : RawRecord) (s : State) : State :=
  match inRange 8 g with
  | none => s.answer tag .badArg
  | some g =>
    if (s.group g).state ≠ .opened then s.answer tag .wrongState
    else match s.recordTaken r with
      | none => s.answer tag .badArg
      | some x =>
        if s.gtb.free = 0 then s.answer tag .poolFull
        else
          let l := (s.group g).records
          (s.setRecords g (l ++ [x])).answer tag .ok [natByte l.length]

/-- Check 4 of a GROUP.ADD: at most 32 values (R201). -/
def addLength (r : RawRecord) : Option Status := if r.values.length ≤ 32 then none else some .badLength

/-- GROUP.ADD (R17). -/
def reqGroupAdd (h : ReqHead) (g : Byte) (r : RawRecord) (s : State) : State :=
  s.request h 0x11#8 (addLength r) (ownGroupAdd h.tag g r)

/-- GROUP_ADD. -/
def execGroupAdd (h : ReqHead) (g : Byte) (r : RawRecord) (s : State) : Host.Outcome State Fault Refusal :=
  s.taking (reqGroupAdd h g r)

/-- GROUP.CLOSE as its owner takes it (R18). -/
def ownGroupClose (tag g : Byte) (s : State) : State :=
  match inRange 8 g with
  | none => s.answer tag .badArg
  | some g =>
    let e := s.group g
    if e.state ≠ .opened then s.answer tag .wrongState
    else if e.records.isEmpty then s.answer tag .emptyGroup
    else (s.setGroup g { e with state := .ready }).answer tag .ok (natHalf e.records.length)

/-- GROUP.CLOSE (R18). -/
def reqGroupClose (h : ReqHead) (g : Byte) (s : State) : State := s.request h 0x12#8 none (ownGroupClose h.tag g)

/-- GROUP_CLOSE. -/
def execGroupClose (h : ReqHead) (g : Byte) (s : State) : Host.Outcome State Fault Refusal := s.taking (reqGroupClose h g)

/-- GROUP.DROP as its owner takes it (R19). -/
def ownGroupDrop (tag g : Byte) (s : State) : State :=
  match inRange 8 g with
  | none => s.answer tag .badArg
  | some g =>
    let e := s.group g
    if e.state ≠ .opened ∧ e.state ≠ .ready then s.answer tag .wrongState
    else if e.pins ≠ 0 then s.answer tag .groupPinned
    else
      let s := s.emptyGroup g
      s.answer tag .ok (natHalf s.gtb.free)

/-- GROUP.DROP (R19). -/
def reqGroupDrop (h : ReqHead) (g : Byte) (s : State) : State := s.request h 0x13#8 none (ownGroupDrop h.tag g)

/-- GROUP_DROP. -/
def execGroupDrop (h : ReqHead) (g : Byte) (s : State) : Host.Outcome State Fault Refusal := s.taking (reqGroupDrop h g)

/-! ## Editing (R20, R21) -/

/-- GROUP.EDIT as its owner takes it (R20). -/
def ownGroupEdit (tag g index : Byte) (values : List Val) (s : State) : State :=
  match inRange 8 g with
  | none => s.answer tag .badArg
  | some g =>
    let e := s.group g
    if e.state ≠ .ready ∧ e.state ≠ .armed then s.answer tag .wrongState
    else match e.records[index.toNat]? with
      | none => s.answer tag .badArg
      | some r =>
        match r.edited s.tgt values with
        | none => s.answer tag .badArg
        | some x => (s.setGroup g { e with records := e.records.set index.toNat x }).answer tag .ok

/-- Check 4 of a GROUP.EDIT: at most 32 values (R201). -/
def editLength (values : List Val) : Option Status := if values.length ≤ 32 then none else some .badLength

/-- GROUP.EDIT (R20). -/
def reqGroupEdit (h : ReqHead) (g index : Byte) (values : List Val) (s : State) : State :=
  s.request h 0x14#8 (editLength values) (ownGroupEdit h.tag g index values)

/-- GROUP_EDIT. -/
def execGroupEdit (h : ReqHead) (g index : Byte) (values : List Val) (s : State) : Host.Outcome State Fault Refusal :=
  s.taking (reqGroupEdit h g index values)

/-! ## Reading (R23, R24) -/

/-- The GROUP.QUERY result, 32 bytes (R23, R204). -/
def groupBytes (s : State) (g : Fin 8) : List Byte :=
  let e := s.group g
  [e.state.byte] ++ natHalf e.records.length ++ natHalf s.gtb.free ++ [natByte e.pins] ++ e.launchBytes ++
  natHalf (s.account g).pending ++ armBytes (s.armEntry g)

/-- GROUP.QUERY as its owner takes it (R23). -/
def ownGroupQuery (tag g : Byte) (s : State) : State :=
  match inRange 8 g with
  | none => s.answer tag .badArg
  | some g => s.answer tag .ok (groupBytes s g)

/-- GROUP.QUERY (R23). -/
def reqGroupQuery (h : ReqHead) (g : Byte) (s : State) : State := s.request h 0x15#8 none (ownGroupQuery h.tag g)

/-- GROUP_QUERY. -/
def execGroupQuery (h : ReqHead) (g : Byte) (s : State) : Host.Outcome State Fault Refusal := s.taking (reqGroupQuery h g)

/-- As many of the first `n` records as fit in `room` bytes (R24). -/
def recordsFitting : Nat → Nat → List Record → List Record
  | 0, _, _ => []
  | _ + 1, _, [] => []
  | n + 1, room, r :: l => if r.size ≤ room then r :: recordsFitting n (room - r.size) l else []

/-- The bytes of a GROUP.READ reply left for records: the status, the record count and the number returned take four
of the 600 (R24). -/
def readRoom : Nat := Config.maxBody - 4

/-- The GROUP.READ result (R24, 10.3.1). -/
def readBytes (l : List Record) (first : Nat) : List Byte :=
  let rs := recordsFitting Config.maxReadRecords readRoom (l.drop first)
  natHalf l.length ++ [natByte rs.length] ++ rs.flatMap Record.bytes

/-- GROUP.READ as its owner takes it (R24). -/
def ownGroupRead (tag g first : Byte) (s : State) : State :=
  match inRange 8 g with
  | none => s.answer tag .badArg
  | some g =>
    let l := (s.group g).records
    if first.toNat < l.length ∨ (first = 0#8 ∧ l = []) then s.answer tag .ok (readBytes l first.toNat)
    else s.answer tag .badArg

/-- GROUP.READ (R24). -/
def reqGroupRead (h : ReqHead) (g first : Byte) (s : State) : State := s.request h 0x16#8 none (ownGroupRead h.tag g first)

/-- GROUP_READ. -/
def execGroupRead (h : ReqHead) (g first : Byte) (s : State) : Host.Outcome State Fault Refusal :=
  s.taking (reqGroupRead h g first)

/-! ## Arming (R66, R67) -/

/-- A READY group joins the tail of the arm list: GROUP.ARM, and start-up arming (R66, R182). -/
def State.armGroup (s : State) (g : Fin 8) (line : Line) (skip : Byte) (mode : ArmMode) : State :=
  (s.setGroup g { s.group g with state := .armed }).setArm (s.sau.arm ++ [⟨g, line, skip, skip, mode⟩])

/-- GROUP.ARM as its owner takes it (R66). -/
def ownGroupArm (tag g line skip mode : Byte) (s : State) : State :=
  match inRange 8 g with
  | none => s.answer tag .badArg
  | some g =>
    match lineOf line, modeOf mode with
    | some line, some mode =>
      if (s.group g).state ≠ .ready then s.answer tag .wrongState
      else (s.armGroup g line skip mode).answer tag .ok [natByte s.sau.arm.length]
    | none, _ => s.answer tag .badArg
    | some _, none => s.answer tag .badArg

/-- GROUP.ARM (R66). -/
def reqGroupArm (h : ReqHead) (g line skip mode : Byte) (s : State) : State :=
  s.request h 0x17#8 none (ownGroupArm h.tag g line skip mode)

/-- GROUP_ARM. -/
def execGroupArm (h : ReqHead) (g line skip mode : Byte) (s : State) : Host.Outcome State Fault Refusal :=
  s.taking (reqGroupArm h g line skip mode)

/-- GROUP.DISARM as its owner takes it (R67). -/
def ownGroupDisarm (tag g : Byte) (s : State) : State :=
  match inRange 8 g with
  | none => s.answer tag .badArg
  | some g =>
    if (s.armEntry g).isNone then s.answer tag .wrongState
    else
      let e := s.group g
      let st := if e.state = .armed then .ready else e.state
      ((s.setGroup g { e with state := st }).setArm (s.sau.arm.filter fun a => a.group != g)).answer tag .ok [st.byte]

/-- GROUP.DISARM (R67). -/
def reqGroupDisarm (h : ReqHead) (g : Byte) (s : State) : State := s.request h 0x18#8 none (ownGroupDisarm h.tag g)

/-- GROUP_DISARM. -/
def execGroupDisarm (h : ReqHead) (g : Byte) (s : State) : Host.Outcome State Fault Refusal :=
  s.taking (reqGroupDisarm h g)

/-! ## Immediate launch (R74) -/

/-- GROUP.APPLY as its owner takes it (R74): the reply follows the appending. -/
def ownGroupApply (tag g : Byte) (s : State) : State :=
  match inRange 8 g with
  | none => s.answer tag .badArg
  | some g =>
    if (s.group g).state ≠ .ready then s.answer tag .wrongState
    else ((s.launch none g).answer tag .ok (natHalf (s.group g).records.length)).settleLanes

/-- GROUP.APPLY (R74). -/
def reqGroupApply (h : ReqHead) (g : Byte) (s : State) : State := s.request h 0x19#8 none (ownGroupApply h.tag g)

/-- GROUP_APPLY. -/
def execGroupApply (h : ReqHead) (g : Byte) (s : State) : Host.Outcome State Fault Refusal := s.taking (reqGroupApply h g)

/-! ## Aborting a launch (R92 to R94) -/

/-- A job in flight is a record of the group, with its lane in HOLD: the abort ends it at once (R92). -/
def Flight.endsAtAbort (f : Flight) (g : Fin 8) : Bool := f.job.ofGroup g && f.part == .hold

/-- How many records of the group an abort withdraws (R92). -/
def State.abortCount (s : State) (g : Fin 8) : Nat :=
  s.queuedCount (Job.ofGroup g) +
  (upTo 4).countP fun l => match (s.lane l).flight with | none => false | some f => f.endsAtAbort g

/-- What an abort does to a job in flight: ended in HOLD, marked when its lane is ACTIVE (R92, R93). -/
def abortFlight (g : Fin 8) (f : Flight) : Option Flight :=
  if f.endsAtAbort g then none
  else if f.job.ofGroup g then some { f with marked := true }
  else some f

/-- The lanes take an abort's withdrawal: queued records of the group are removed, a record in HOLD ends, a record
with its lane ACTIVE is marked (R92, R93). -/
def State.abortLanes (s : State) (g : Fin 8) : State :=
  (upTo 4).foldl
    (fun s l => s.setFlight l ((s.lane l).flight.bind (abortFlight g))) (s.dropQueued (Job.ofGroup g))

/-- GROUP.ABORT of a LAUNCHING group: its account takes `abort taken`, the lanes withdraw, the reply joins with the two
numbers, and the withdrawn records are counted, so that an N.DONE joins in the step of the reply and behind it (R92 to
R94, R206). The number in flight takes one byte, a size no rule gives (DEDUCED, log entry 15). -/
def State.abort (s : State) (tag : Byte) (g : Fin 8) : State :=
  let t := (s.setAccount g { s.account g with abortTaken := true }).abortLanes g
  (t.answer tag .ok (natHalf (s.abortCount g) ++ [natByte (t.flightCount (Job.ofGroup g))])).recordsWithdrawn g
    (s.abortCount g)

/-- GROUP.ABORT as its owner takes it (R92, R94). -/
def ownGroupAbort (tag g : Byte) (s : State) : State :=
  match inRange 8 g with
  | none => s.answer tag .badArg
  | some g =>
    if (s.group g).state ≠ .launching then s.answer tag .wrongState
    else (s.abort tag g).settleLanes

/-- GROUP.ABORT (R92). -/
def reqGroupAbort (h : ReqHead) (g : Byte) (s : State) : State := s.request h 0x1A#8 none (ownGroupAbort h.tag g)

/-- GROUP_ABORT. -/
def execGroupAbort (h : ReqHead) (g : Byte) (s : State) : Host.Outcome State Fault Refusal := s.taking (reqGroupAbort h g)

end Sys2Proof.Machine
end

