-- ==== Sys2Proof/Machine/Sync.lean ====
section
/-! DEFINITION. The Sync and Arm Unit (chapter 3): the walk, edges, windows, the pulse filter, and the sync requests;
and the loop requests (chapter 5). -/

namespace Sys2Proof.Machine

/-! ## The walk at an edge (R69 to R71) -/

/-- The N.OVERRUN payload (R71). -/
def overrunNotice (s : State) (g : Fin 8) (line : Line) (number : Half) : List Byte :=
  [natByte g.val, lineByte line] ++ halfBytes number ++
  (match (s.group g).launchEdge with
    | none => [0#8, 0#8, 0#8]
    | some e => halfBytes e.number ++ [lineByte e.line]) ++
  natHalf (s.account g).pending

/-- An occurrence is lost: `overrun seen` and N.OVERRUN (R71). -/
def State.overrun (s : State) (g : Fin 8) (line : Line) (number : Half) : State :=
  (s.setGroup g { s.group g with overrunSeen := true }).notify 0x02#8 (overrunNotice s g line number)

/-- What a walk leaves: the arm list and the groups found due, in list order. -/
structure Walked where
  arm : List ArmEntry
  due : List (Fin 8)
deriving DecidableEq, Repr

/-- The move of one entry on the walked line (R69): a LAUNCHING group's entry reloads, a due ONCE entry leaves. -/
def ArmEntry.walked (e : ArmEntry) (launching : Bool) (w : Walked) : Walked :=
  if e.countdown ≠ 0#8 then ⟨{ e with countdown := e.countdown - 1#8 } :: w.arm, w.due⟩
  else if launching then ⟨{ e with countdown := e.skip } :: w.arm, w.due⟩
  else match e.mode with
    | .once => ⟨w.arm, e.group :: w.due⟩
    | .every => ⟨{ e with countdown := e.skip } :: w.arm, e.group :: w.due⟩

/-- The walk of the arm list for a line: its moves (R69). -/
def State.walk (s : State) (line : Line) : List ArmEntry → Walked
  | [] => ⟨[], []⟩
  | e :: l =>
    let w := s.walk line l
    if e.line ≠ line then ⟨e :: w.arm, w.due⟩
    else e.walked ((s.group e.group).state == .launching) w

/-- The groups whose occurrence is lost at an edge of a line (R71). -/
def State.lost (s : State) (line : Line) : List (Fin 8) :=
  (s.sau.arm.filter fun e =>
    e.line == line && e.countdown == 0#8 && (s.group e.group).state == .launching).map (·.group)

/-! ## Edges and windows (R61, R72, R73) -/

/-- A window closes: every group still in its set takes `late` (R72, R73). -/
def State.closeWindow (s : State) (line : Line) : State :=
  match (s.line line).opened with
  | none => s
  | some w =>
    w.set.foldl (fun s g => s.setGroup g { s.group g with late := true })
      (s.setLine line { s.line line with opened := none })

/-- A window opens over the groups an edge launched, when the line's `window` is not 0 (R72). -/
def State.openWindow (s : State) (line : Line) (set : List (Fin 8)) : State :=
  if (s.line line).window = 0#16 then s
  else s.setLine line { s.line line with opened := some ⟨(s.line line).window, set⟩ }

/-- Steps 1 and 2 of an accepted edge: the counter, and the window that was open (R61). -/
def State.edgeBegun (s : State) (line : Line) : State :=
  (s.setLine line { s.line line with counter := (s.line line).counter + 1#16 }).closeWindow line

/-- The walk of an accepted edge: the lost occurrences and the new arm list (R61, R69 to R71). -/
def State.edgeWalked (s : State) (line : Line) : State :=
  ((s.lost line).foldl (fun s g => s.overrun g line (s.line line).counter) s).setArm (s.walk line s.sau.arm).arm

/-- Groups are launched one after another at an edge just taken (R70, R82). -/
def State.launchAll (s : State) (line : Line) (gs : List (Fin 8)) : State :=
  gs.foldl (fun s g => s.launch (some ⟨(s.line line).counter, line⟩) g) s

/-- The groups an edge of a line would launch from here: those its walk finds due (R69). -/
def State.dueAt (s : State) (line : Line) : List (Fin 8) := ((s.edgeBegun line).walk line (s.edgeBegun line).sau.arm).due

/-- An accepted edge event: the SAU's four steps, and the TLU's loops before, between or after the launches: where, is a
FREE VALUE (R61, R82, R112; log entry 6). -/
def State.edgeMade (s : State) (line : Line) : State :=
  let due := s.dueAt line
  let k := atMost due.length (Config.loopsPlace s.fresh)
  ((((((s.edgeBegun line).edgeWalked line).launchAll line (due.take k)).loopsEdge line).launchAll line
    (due.drop k)).openWindow line due).drawn

/-- An accepted edge, whole: the edge event, and the lanes taking what was appended (R61, R40). -/
def State.edge (s : State) (line : Line) : State := (s.edgeMade line).settleLanes

/-! ## The pulse filter (R60) -/

/-- A direction of transition is an edge under a setting (R60). -/
def EdgeSel.accepts (e : EdgeSel) (high : Bool) : Bool :=
  match e with
  | .rising => high
  | .falling => !high
  | .both => true

/-- The level of a line's pin. -/
def State.pinLevel (s : State) : Line → Bool
  | .sync0 => s.pins.sync0
  | .sync1 => s.pins.sync1

/-- The level of a line's pin changes. -/
def State.setPinLevel (s : State) (line : Line) (level : Bool) : State :=
  match line with
  | .sync0 => { s with pins := { s.pins with sync0 := level } }
  | .sync1 => { s with pins := { s.pins with sync1 := level } }

/-- A level is in its hold while it differs from the last level the filter passed (R60). -/
def levelChanged (line : Line) (level : Bool) (s : State) : State :=
  s.setLine line { s.line line with hold := (s.line line).filtered != some level }

/-- SYNC_LEVEL_CHANGE: the pin takes the level always; the filter follows while the part takes events (R60, R75). -/
def execSyncLevelChange (line : Line) (level : Bool) (s : State) : Host.Outcome State Fault Refusal :=
  (s.setPinLevel line level).taking (levelChanged line level)

/-- A level has held for 1 us: the first gives no transition, a later one is judged by `edge` (R60). -/
def filterSettled (line : Line) (s : State) : State :=
  let x := s.line line
  let level := s.pinLevel line
  if x.hold then
    let t := s.setLine line { x with filtered := some level, hold := false }
    if x.filtered = some !level ∧ x.edge.accepts level then t.edge line else t
  else s

/-- SYNC_FILTER_SETTLED. -/
def execSyncFilterSettled (line : Line) (s : State) : Host.Outcome State Fault Refusal := s.taking (filterSettled line)

/-- WINDOW_EXPIRY (R73). -/
def execWindowExpiry (line : Line) (s : State) : Host.Outcome State Fault Refusal :=
  s.taking fun s => s.closeWindow line

/-! ## Sync requests (R62 to R64) -/

/-- SYNC.SET as its owner takes it (R62). -/
def ownSyncSet (tag line edge : Byte) (window : Half) (s : State) : State :=
  match lineOf line, edgeOf edge with
  | some line, some edge =>
    if window.toNat ≤ 6000 then (s.setLine line { s.line line with edge, window }).answer tag .ok
    else s.answer tag .badArg
  | none, _ => s.answer tag .badArg
  | some _, none => s.answer tag .badArg

/-- SYNC.SET (R62). -/
def reqSyncSet (h : ReqHead) (line edge : Byte) (window : Half) (s : State) : State :=
  s.request h 0x30#8 none (ownSyncSet h.tag line edge window)

/-- SYNC_SET. -/
def execSyncSet (h : ReqHead) (line edge : Byte) (window : Half) (s : State) : Host.Outcome State Fault Refusal :=
  s.taking (reqSyncSet h line edge window)

/-- SYNC.PULSE as its owner takes it: the whole edge event, then the reply with the edge number and the number of groups
launched, and then the lanes take what was appended, so that no notice of a launched group precedes the reply (R63,
R206). An N.OVERRUN of the walk has joined before the reply (R206), so it keeps its place ahead of every notice the lanes'
taking raises, of whatever group (R195). -/
def ownSyncPulse (tag line : Byte) (s : State) : State :=
  match lineOf line with
  | none => s.answer tag .badArg
  | some line =>
    let t := s.edgeMade line
    (t.answer tag .ok
      (halfBytes (t.line line).counter ++ [natByte (s.dueAt line).length])).noticesPlaced.settleLanes

/-- SYNC.PULSE (R63). -/
def reqSyncPulse (h : ReqHead) (line : Byte) (s : State) : State := s.request h 0x31#8 none (ownSyncPulse h.tag line)

/-- SYNC_PULSE. -/
def execSyncPulse (h : ReqHead) (line : Byte) (s : State) : Host.Outcome State Fault Refusal := s.taking (reqSyncPulse h line)

/-- The time remaining of an open window, at most its duration: a FREE VALUE within it, `k` numbering the question
(R64; log entry 11). -/
def Window.left (w : Window) (k : Nat) : Nat := Config.windowLeft k % (w.duration.toNat + 1)

/-- The SYNC.QUERY result (R64; log entry 15). -/
def syncBytes (s : State) (line : Line) : List Byte :=
  let x := s.line line
  let entries := s.sau.arm.filter fun e => e.line == line
  let set := match x.opened with | none => [] | some w => w.set
  [x.edge.byte] ++ halfBytes x.window ++ halfBytes x.counter ++
  optional 2 (x.opened.map fun w => natHalf (w.left s.fresh)) ++
  [natByte set.length] ++ set.map (fun g => natByte g.val) ++
  [natByte entries.length] ++ entries.flatMap fun e => [natByte e.group.val, e.skip, e.countdown, e.mode.byte]

/-- SYNC.QUERY as its owner takes it (R64). -/
def ownSyncQuery (tag line : Byte) (s : State) : State :=
  match lineOf line with
  | none => s.answer tag .badArg
  | some line => (s.answer tag .ok (syncBytes s line)).drawn

/-- SYNC.QUERY (R64). -/
def reqSyncQuery (h : ReqHead) (line : Byte) (s : State) : State := s.request h 0x32#8 none (ownSyncQuery h.tag line)

/-- SYNC_QUERY. -/
def execSyncQuery (h : ReqHead) (line : Byte) (s : State) : Host.Outcome State Fault Refusal := s.taking (reqSyncQuery h line)

/-! ## Loop requests (R105 to R110) -/

/-- LOOP.SET as its owner takes it (R105). -/
def ownLoopSet (tag n : Byte) (r : RawLoop) (s : State) : State :=
  match inRange 4 n with
  | none => s.answer tag .badArg
  | some n =>
    if (s.loop n).state.running then s.answer tag .wrongState
    else match loopCfgOf r with
      | none => s.answer tag .badArg
      | some c =>
        if c.fits s.tgt then (s.setLoop n { s.loop n with configured := true, cfg := c }).answer tag .ok
        else s.answer tag .badArg

/-- Check 4 of a LOOP.SET: at most 8 points (R201). -/
def loopLength (r : RawLoop) : Option Status := if r.points.length ≤ 8 then none else some .badLength

/-- LOOP.SET (R105). -/
def reqLoopSet (h : ReqHead) (n : Byte) (r : RawLoop) (s : State) : State :=
  s.request h 0x40#8 (loopLength r) (ownLoopSet h.tag n r)

/-- LOOP_SET. -/
def execLoopSet (h : ReqHead) (n : Byte) (r : RawLoop) (s : State) : Host.Outcome State Fault Refusal :=
  s.taking (reqLoopSet h n r)

/-- LOOP.START as its owner takes it (R107, R108). -/
def ownLoopStart (tag n : Byte) (s : State) : State :=
  match inRange 4 n with
  | none => s.answer tag .badArg
  | some n =>
    match s.startRefusal n with
    | some st => s.answer tag st
    | none => ((s.startLoop n).answer tag .ok).settleLanes

/-- LOOP.START (R107). -/
def reqLoopStart (h : ReqHead) (n : Byte) (s : State) : State := s.request h 0x41#8 none (ownLoopStart h.tag n)

/-- LOOP_START. -/
def execLoopStart (h : ReqHead) (n : Byte) (s : State) : Host.Outcome State Fault Refusal := s.taking (reqLoopStart h n)

/-- LOOP.STOP as its owner takes it: on a STOPPED loop nothing is changed or withdrawn (R110). -/
def ownLoopStop (tag n : Byte) (s : State) : State :=
  match inRange 4 n with
  | none => s.answer tag .badArg
  | some n =>
    if (s.loop n).state = .stopped then s.answer tag .ok [0#8, natByte (s.flightCount (Job.ofLoop n))]
    else
      (s.stopLoop n).answer tag .ok
        [natByte (s.queuedCount (Job.ofLoop n)), natByte (s.flightCount (Job.ofLoop n))]

/-- LOOP.STOP (R110). -/
def reqLoopStop (h : ReqHead) (n : Byte) (s : State) : State := s.request h 0x42#8 none (ownLoopStop h.tag n)

/-- LOOP_STOP. -/
def execLoopStop (h : ReqHead) (n : Byte) (s : State) : Host.Outcome State Fault Refusal := s.taking (reqLoopStop h n)

/-- A loop's jobs on the lanes, each as its kind and its lane: lane by lane, the job in flight first (R106; log entry
17). -/
def jobsOutBytes (s : State) (n : Fin 4) : List Byte :=
  (upTo 4).flatMap fun l =>
    let x := s.lane l
    let jobs := (match x.flight with | none => [] | some f => [f.job]) ++ x.queue
    (jobs.filter (Job.ofLoop n)).flatMap fun j => [j.kindByte, natByte l.val]

/-- The LOOP.QUERY result, 127 bytes and 2 for each job out (R106, R204). -/
def loopBytes (s : State) (n : Fin 4) : List Byte :=
  let x := s.loop n
  loopBlock x.configured x.cfg ++ [x.state.byte] ++ valBytes x.output ++
  optional 4 (x.cfg.follower.map fun _ => valBytes x.lastFollower) ++ optional 4 (x.lastMeasure.map valBytes) ++
  [natByte x.edgeCount, x.cycle.byte, flagByte x.stale, flagByte x.skipSeen, natByte x.jobsOut] ++ jobsOutBytes s n

/-- LOOP.QUERY as its owner takes it: `skip seen` is cleared as it is read (R106). -/
def ownLoopQuery (tag n : Byte) (s : State) : State :=
  match inRange 4 n with
  | none => s.answer tag .badArg
  | some n => (s.setLoop n { s.loop n with skipSeen := false }).answer tag .ok (loopBytes s n)

/-- LOOP.QUERY (R106). -/
def reqLoopQuery (h : ReqHead) (n : Byte) (s : State) : State := s.request h 0x43#8 none (ownLoopQuery h.tag n)

/-- LOOP_QUERY. -/
def execLoopQuery (h : ReqHead) (n : Byte) (s : State) : Host.Outcome State Fault Refusal := s.taking (reqLoopQuery h n)

end Sys2Proof.Machine
end

