-- ==== Sys2Proof/Machine/Store.lean ====
section
/-! DEFINITION. The Profile Store Controller (chapters 6 and 7): images and their checks, the store queue and engine,
suspension, the array's events, the slot requests, and abandoned array work. -/

namespace Sys2Proof.Machine

/-! ## Slot images (R132 to R134, 10.5.1) -/

/-- The marker of a slot header (10.5.1). -/
def slotMarker : Val := 0x6C2E93D5#32

/-- The marker of the setup record (10.5.2). -/
def setupMarker : Val := 0x9B47D1E2#32

/-- The 32 header bytes of a slot image (10.5.1). -/
def slotHeader (count length : Nat) (crc : Val) (label : Label) : List Byte :=
  valBytes slotMarker ++ [1#8, 0#8] ++ natHalf count ++ natHalf length ++ [0#8, 0#8] ++ valBytes crc ++ label.toList ++
  List.replicate 8 0#8

/-- The slot image a save captures: header, then the records serialized in index order (R132, R133, R153). -/
def slotImage (records : List Record) (label : Label) : List Byte :=
  let payload := records.flatMap Record.bytes
  slotHeader records.length payload.length (crc32 payload) label ++ payload

/-- Every byte is erased. -/
def allErased (l : List Byte) : Bool := l.all (· == 0xFF#8)

/-- The header of a unit that holds a slot: its first 32 bytes (R132). -/
def headerOf (m : List Host.Cell) (u : Nat) : List Byte := Memory.readAll m (unitBase u) Config.headerBytes

/-- The payload a header's length names (R132). -/
def payloadOf (m : List Host.Cell) (u : Nat) (length : Nat) : List Byte :=
  Memory.readAll m (unitBase u + Config.headerBytes) length

/-- The unit's header and payload pass the checks of an image (R134). -/
def imageAccepted (m : List Host.Cell) (u : Nat) : Bool :=
  let l := headerOf m u
  let length := (halfAt l 8).toNat
  valAt l 0 = slotMarker ∧ byteAt l 4 = 1#8 ∧ 8 ≤ length ∧ length ≤ Config.maxPayload ∧
    crc32 (payloadOf m u length) = valAt l 12

/-- The classification of a slot by its header and payload: BLANK, INVALID or VALID (R134, R136). -/
def classifySlot (m : List Host.Cell) (slot : Fin 32) : SlotState :=
  let l := headerOf m slot.val
  if allErased l then .blank
  else if imageAccepted m slot.val then .valid ⟨labelAt l 16, halfAt l 6, halfAt l 8⟩
  else .invalid

/-- The serialized records of a payload, each with the record checks of R158; none when a check fails or bytes are
left over. Every record takes 8 bytes at least, which bounds the number of steps. -/
def parseRecords : Nat → List Byte → Option (List Record)
  | _, [] => some []
  | 0, _ :: _ => none
  | k + 1, b :: l =>
    let bytes := b :: l
    let n := (byteAt bytes 5).toNat
    if bytes.length < 8 + 4 * n then none
    else match recordOf (rawRecordAt bytes 0 n) with
      | none => none
      | some r => (parseRecords k (bytes.drop (8 + 4 * n))).map (r :: ·)

/-- The records of a VALID slot's image, when it passes the record checks (R158). -/
def imageRecords (m : List Host.Cell) (slot : Fin 32) (info : SlotInfo) : Option (List Record) :=
  match parseRecords info.length.toNat (payloadOf m slot.val info.length.toNat) with
  | none => none
  | some l => if l.length = info.count.toNat ∧ 1 ≤ l.length ∧ l.length ≤ Config.poolSize then some l else none

/-! ## The setup record (R175, 10.5.2) -/

/-- A loop in the setup body (10.5.2, R203). -/
def setupLoop (x : LoopEntry) : List Byte :=
  if x.configured then loopBlock true x.cfg else unconfiguredBlock x.cfg.autostart

/-- The 602 bytes of the setup body: the live setup (R162, R175). -/
def setupBody (s : State) : List Byte :=
  (upTo 4).flatMap (fun l => (s.lane l).settings.bytes) ++
  (upTo 16).flatMap (fun t => (s.target t).cfg.bytes) ++
  (s.sau.line0.edge.byte :: halfBytes s.sau.line0.window) ++ (s.sau.line1.edge.byte :: halfBytes s.sau.line1.window) ++
  (upTo 4).flatMap (fun n => setupLoop (s.loop n)) ++ designationBytes s.suc.designation

/-- The setup record, 618 bytes (10.5.2). -/
def setupImage (s : State) : List Byte :=
  let body := setupBody s
  valBytes setupMarker ++ [1#8, 0#8] ++ natHalf body.length ++ valBytes (crc32 body) ++ [0#8, 0#8, 0#8, 0#8] ++ body

/-! ## The engine and the queue (R148 to R150) -/

/-- The engine takes a state. -/
def State.setEngine (s : State) (e : Engine) : State := { s with psc := { s.psc with engine := e } }

/-- The store queue takes a value. -/
def State.setQueue (s : State) (l : List StoreOp) : State := { s with psc := { s.psc with queue := l } }

/-- The array takes a content. -/
def State.setMem (s : State) (m : List Host.Cell) : State := { s with nv := { s.nv with mem := m } }

/-- A LOAD whose slot is not BUSY is eligible (R150). -/
def State.eligible (s : State) (op : StoreOp) : Bool :=
  match op.kind with
  | .load slot _ => (s.slot slot).state != .busy
  | .save _ _ _ => false
  | .erase _ => false
  | .setupSave => false
  | .lock _ => false

/-- The oldest eligible LOAD (R150, R168). -/
def State.nextLoad (s : State) : Option StoreOp := s.psc.queue.find? s.eligible

/-- The engine's choice at IDLE: the oldest eligible LOAD, else the oldest operation (R150). -/
def State.nextOp (s : State) : Option StoreOp :=
  match s.nextLoad with
  | some op => some op
  | none => s.psc.queue.head?

/-- The chosen operation leaves the queue (R150). -/
def State.dequeue (s : State) (op : StoreOp) : State := s.setQueue (s.psc.queue.eraseP (· == op))

/-- A store operation is answered; an internal one has no reply (R151, R171). -/
def State.replyTo (s : State) (op : StoreOp) (st : Status) (result : List Byte := []) : State :=
  match op.origin with
  | none => s
  | some tag => s.answer tag st result

/-- The erase unit an operation works on (R130, R162). -/
def StoreOp.unit (op : StoreOp) : Nat :=
  match op.kind with
  | .save _ slot _ => slot.val
  | .load slot _ => slot.val
  | .erase slot => slot.val
  | .setupSave => Config.setupUnit
  | .lock slot => slot.val

/-- The directory entry of an operation's slot takes a state; a setup save has none (R137, R162). -/
def State.setOpSlot (s : State) (op : StoreOp) (x : SlotState) : State :=
  match op.kind with
  | .save _ slot _ => s.setSlotState slot x
  | .load slot _ => s.setSlotState slot x
  | .erase slot => s.setSlotState slot x
  | .setupSave => s
  | .lock slot => s.setSlotState slot x

/-- A group's `pins` falls by one (R26). -/
def State.unpin (s : State) (g : Fin 8) : State := s.setGroup g { s.group g with pins := (s.group g).pins - 1 }

/-- A group reserved for a load returns to EMPTY (R25). -/
def State.release (s : State) (g : Fin 8) : State := if (s.group g).state = .loading then s.emptyGroup g else s

/-- An EMPTY group is reserved for a load (R25, R171). -/
def State.reserve (s : State) (g : Fin 8) : State :=
  if (s.group g).state = .empty then s.setGroup g { s.group g with state := .loading } else s

/-! ## Starts (R153, R157, R160, R162, R164) -/

/-- The guard that refuses an erase or program of a slot: LOCKED before PROTECTED (R139, R143). -/
def State.slotGuard (s : State) (slot : Fin 32) : Option Status :=
  if (s.slot slot).isLocked then some .slotLocked
  else if (s.slot slot).isProtected then some .slotProtected
  else none

/-- Array work starts: the marker clear, the entry BUSY, the engine ERASING (R153, R160, R162). -/
def State.startErase (s : State) (w : Work) : State :=
  ((s.setMem (Memory.clearMarker s.nv.mem w.op.unit)).setOpSlot w.op .busy).setEngine (.erasing w)

/-- What a save captures of its group (R153). -/
def State.capture (s : State) (op : StoreOp) (g : Fin 8) (label : Label) : Work :=
  let l := (s.group g).records
  ⟨op, slotImage l label, some ⟨label, BitVec.ofNat 16 l.length, BitVec.ofNat 16 (payloadLength l)⟩⟩

/-- The start of a chosen operation at IDLE; a refused one is answered and leaves the engine IDLE (R153, R157, R160,
R162, R164). -/
def State.startOp (s : State) (op : StoreOp) : State :=
  match op.kind with
  | .load _ _ => s.setEngine (.reading op)
  | .save g slot label =>
    match s.slotGuard slot with
    | some st => (s.unpin g).replyTo op st
    | none => (s.unpin g).startErase (s.capture op g label)
  | .erase slot =>
    match s.slotGuard slot with
    | some st => s.replyTo op st
    | none => s.startErase ⟨op, [], none⟩
  | .setupSave => s.startErase ⟨op, setupImage s, none⟩
  | .lock slot => if s.psc.frozen then s.replyTo op .frozen else s.setEngine (.fusing op slot)

/-- The engine at IDLE chooses until an operation is in progress or the queue is empty (R150). -/
def State.chooseFrom : Nat → State → State
  | 0, s => s
  | k + 1, s =>
    match s.psc.engine, s.nextOp with
    | .idle, some op => State.chooseFrom k ((s.dequeue op).startOp op)
    | _, _ => s

/-- The choice of R150; each choice takes one operation from the queue. -/
def State.choose (s : State) : State := s.chooseFrom s.psc.queue.length

/-! ## Suspension (R166 to R169) -/

/-- The conditions of R166 but for the engine's state: an eligible LOAD, and no guard. -/
def State.wantsSuspend (s : State) : Bool := s.nextLoad.isSome && !s.psc.guard

/-- The conditions are judged: in an erase the suspend latency starts (R166). A program is judged at its page ends
(R167). -/
def State.judge (s : State) : State :=
  match s.psc.engine with
  | .erasing _ => if s.wantsSuspend then { s with psc := { s.psc with suspending := true } } else s
  | _ => s

/-- The suspended operation resumes, and the guard starts (R168, R169). -/
def State.resume (s : State) (x : Suspended) : State :=
  { s with psc :=
    { s.psc with
      guard := true
      suspending := false
      engine := match x with | .erase w => .erasing w | .program w pages => .programming w pages } }

/-- Under a suspension: the oldest eligible LOAD, else the resumption (R168). -/
def State.chooseUnder (s : State) (x : Suspended) : State :=
  match s.nextLoad with
  | some op => (s.dequeue op).setEngine (.readingUnderSuspend op x)
  | none => s.resume x

/-- A suspension takes effect, and the choice that follows it is made in the same step (R149, R166 to R168). -/
def State.suspend (s : State) (x : Suspended) : State :=
  State.chooseUnder { s with psc := { s.psc with suspending := false } } x

/-! ## Ends of operations (R154, R155, R157 to R165) -/

/-- The engine releases its operation: IDLE, the guard cancelled, and the next choice (R150, R169). -/
def State.engineFree (s : State) : State :=
  State.choose { s with psc := { s.psc with engine := .idle, guard := false, suspending := false } }

/-- An operation ends with a store fault, its phase in the reply; the slot is INVALID (R155, R161, R163; 10.2). -/
def State.storeFault (s : State) (w : Work) (phase : Byte) : State :=
  ((s.setOpSlot w.op .invalid).replyTo w.op .storeFault [phase]).engineFree

/-- The pages an image occupies, in the order they are programmed: page 0 last (R154, R163). -/
def imagePages (image : List Byte) : List (Fin 16) :=
  ((upTo 16).filter fun p => p.val ≠ 0 ∧ p.val * Config.pageBytes < image.length) ++ [0]

/-- The pages left of a program begin, or it suspends before the next (R154, R167). -/
def State.nextPages (s : State) (w : Work) (pages : List (Fin 16)) : State :=
  if s.wantsSuspend then s.suspend (.program w pages)
  else { s with psc := { s.psc with engine := .programming w pages, suspending := false } }

/-- Every byte of a unit reads 0xFF (R130). -/
def Memory.unitErased (m : List Host.Cell) (u : Nat) : Bool := m.all fun c => c.1 / Config.unitBytes != u

/-- A save's or a setup save's last page has verified (R154, R163). -/
def State.saveDone (s : State) (w : Work) : State :=
  match w.op.kind, w.info with
  | .save _ slot _, some info =>
    ((s.setSlotState slot (.valid info)).replyTo w.op .ok
      ([natByte slot.val] ++ halfBytes info.count ++ halfBytes info.length)).engineFree
  | _, _ => (s.replyTo w.op .ok).engineFree

/-- The array after an erase of unit `u` whose verify found the cells `left`. Of the setup area the header is erased
(R163). A slot reads blank or invalid, never valid (R157): should the cells make up a whole image, the last marker byte is
erased (DESIGN CHOICE, log entry 42). -/
def Memory.eraseFailed (m : List Host.Cell) (u : Nat) (left : List (Nat × Byte)) : List Host.Cell :=
  let erased := Memory.eraseUnit m u
  let found := Memory.residue erased u left
  if u = Config.setupUnit then Memory.residue erased u (left.filter fun c => Config.setupHeaderBytes ≤ c.1)
  else if imageAccepted found u then Memory.write found (unitBase u + 3) 0xFF#8
  else found

/-- An erase and its verify end: `left` is what the verify finds that is not erased (R130, R154, R155, R161, R163). -/
def eraseComplete (left : List (Nat × Byte)) (s : State) : State :=
  match s.psc.engine with
  | .erasing w =>
    let u := w.op.unit
    let found := Memory.residue (Memory.eraseUnit s.nv.mem u) u left
    if !Memory.unitErased found u then (s.setMem (Memory.eraseFailed s.nv.mem u left)).storeFault w 0#8
    else
      let t := s.setMem found
      match w.op.kind with
      | .erase slot => ((t.setSlotState slot .blank).replyTo w.op .ok).engineFree
      | _ => t.nextPages w (imagePages w.image)
  | _ => s

/-- ERASE_COMPLETE. -/
def execEraseComplete (left : List (Nat × Byte)) (s : State) : Host.Outcome State Fault Refusal :=
  s.taking (eraseComplete left)

/-- A page program and its read-back end: `left` is what the page reads when it is not what was written (R130, R154,
R155, R163, R167). -/
def pageProgramComplete (left : Option (List Byte)) (s : State) : State :=
  match s.psc.engine with
  | .programming w (p :: pages) =>
    let wanted := imagePage w.image p.val
    let base := pageBase w.op.unit p.val
    let m := Memory.programAll s.nv.mem base ((left.getD wanted).take Config.pageBytes)
    let t := s.setMem m
    if Memory.readAll m base Config.pageBytes ≠ wanted then t.storeFault w (natByte (p.val + 1))
    else if pages.isEmpty then t.saveDone w
    else t.nextPages w pages
  | _ => s

/-- PAGE_PROGRAM_COMPLETE. -/
def execPageProgramComplete (left : Option (List Byte)) (s : State) : Host.Outcome State Fault Refusal :=
  s.taking (pageProgramComplete left)

/-- A lock programming is read back: a bit once set stays set (R131, R165). -/
def fuseProgramComplete (blown : Bool) (s : State) : State :=
  match s.psc.engine with
  | .fusing op slot =>
    let bit := s.nv.locks[slot] || blown
    let t : State := { s with nv := { s.nv with locks := s.nv.locks.set slot bit } }
    if bit then ((t.setSlot slot { t.slot slot with isLocked := true, isProtected := true }).replyTo op .ok).engineFree
    else (t.replyTo op .storeFault [17#8]).engineFree
  | _ => s

/-- FUSE_PROGRAM_COMPLETE. -/
def execFuseProgramComplete (blown : Bool) (s : State) : Host.Outcome State Fault Refusal :=
  s.taking (fuseProgramComplete blown)

/-- The suspend latency has run out: the erase suspends, or carries on when no eligible LOAD is queued any more
(R166). -/
def suspendEffect (s : State) : State :=
  match s.psc.engine with
  | .erasing w =>
    if !s.psc.suspending then s
    else if s.nextLoad.isSome then s.suspend (.erase w)
    else { s with psc := { s.psc with suspending := false } }
  | _ => s

/-- SUSPEND_EFFECT. -/
def execSuspendEffect (s : State) : Host.Outcome State Fault Refusal := s.taking suspendEffect

/-- The resume guard stops, and the conditions are judged at once (R169). -/
def resumeGuardExpiry (s : State) : State :=
  if s.psc.guard then State.judge { s with psc := { s.psc with guard := false } } else s

/-- RESUME_GUARD_EXPIRY. -/
def execResumeGuardExpiry (s : State) : Host.Outcome State Fault Refusal := s.taking resumeGuardExpiry

/-! ## Loads (R157 to R159) -/

/-- How a load ends. -/
inductive LoadEnd where
  | blank
  | invalid
  | poolFull (info : SlotInfo)
  | filled (info : SlotInfo) (records : List Record)
deriving DecidableEq, Repr

/-- What an image read finds (R157 to R159). -/
def State.loadResult (s : State) (slot : Fin 32) : LoadEnd :=
  match classifySlot s.nv.mem slot with
  | .blank => .blank
  | .valid info =>
    match imageRecords s.nv.mem slot info with
    | none => .invalid
    | some l => if l.length ≤ s.gtb.free then .filled info l else .poolFull info
  | .invalid => .invalid
  | .busy => .invalid

/-- The directory state a load leaves (R137). -/
def LoadEnd.slotState : LoadEnd → SlotState
  | .blank => .blank
  | .invalid => .invalid
  | .poolFull info => .valid info
  | .filled info _ => .valid info

/-- The status a load ends with (R157 to R159). -/
def LoadEnd.status : LoadEnd → Status
  | .blank => .slotBlank
  | .invalid => .slotInvalid
  | .poolFull _ => .poolFull
  | .filled _ _ => .ok

/-- The result of a load's reply: slot, record count and label (R159, 10.3.1). -/
def LoadEnd.result (slot : Fin 32) : LoadEnd → List Byte
  | .filled info _ => [natByte slot.val] ++ halfBytes info.count ++ info.label.toList
  | .blank => []
  | .invalid => []
  | .poolFull _ => []

/-- The group of a load: filled and READY, or EMPTY again (R25, R157, R159). -/
def State.loadGroup (s : State) (g : Fin 8) (e : LoadEnd) : State :=
  match e with
  | .filled _ l =>
    if (s.group g).state = .loading then
      let s := s.setRecords g l
      s.setGroup g { s.group g with state := .ready }
    else s
  | .blank => s.release g
  | .invalid => s.release g
  | .poolFull _ => s.release g

/-- A load's effects on the directory, its group and its reply (R157 to R159). -/
def State.loadEnd (s : State) (op : StoreOp) (slot : Fin 32) (g : Fin 8) : State :=
  let e := s.loadResult slot
  ((s.setSlotState slot e.slotState).loadGroup g e).replyTo op e.status (e.result slot)

/-! ## Slot requests (R140 to R145, R152, R156, R160, R162, R164) -/

/-- An accepted operation joins the queue; an IDLE engine chooses at once, and the conditions of a suspension are
judged (R150, R166). -/
def State.accept (s : State) (kind : StoreKind) (origin : Option Byte) : State :=
  let op : StoreOp := ⟨kind, origin, s.psc.accepted⟩
  (State.choose { s with psc := { s.psc with queue := s.psc.queue ++ [op], accepted := s.psc.accepted + 1 } }).judge

/-- A group in READY, ARMED or LAUNCHING can be saved (R152). -/
def GroupState.savable : GroupState → Bool
  | .ready | .armed | .launching => true
  | .empty | .opened | .loading => false

/-- SLOT.SAVE as its owner takes it (R152). -/
def ownSlotSave (tag g slot : Byte) (label : Label) (s : State) : State :=
  match inRange 32 slot, inRange 8 g with
  | some slot, some g =>
    match s.slotGuard slot with
    | some st => s.answer tag st
    | none =>
      let e := s.group g
      if !e.state.savable then s.answer tag .wrongState
      else if Config.maxPayload < payloadLength e.records then s.answer tag .tooLarge
      else (s.setGroup g { e with pins := e.pins + 1 }).accept (.save g slot label) (some tag)
  | none, _ => s.answer tag .badArg
  | some _, none => s.answer tag .badArg

/-- SLOT.SAVE (R152). -/
def reqSlotSave (h : ReqHead) (g slot : Byte) (label : Label) (s : State) : State :=
  s.request h 0x50#8 none (ownSlotSave h.tag g slot label)

/-- SLOT_SAVE. -/
def execSlotSave (h : ReqHead) (g slot : Byte) (label : Label) (s : State) : Host.Outcome State Fault Refusal :=
  s.taking (reqSlotSave h g slot label)

/-- SLOT.LOAD as its owner takes it (R156). -/
def ownSlotLoad (tag slot g : Byte) (s : State) : State :=
  match inRange 32 slot, inRange 8 g with
  | some slot, some g =>
    if (s.group g).state ≠ .empty then s.answer tag .wrongState
    else (s.reserve g).accept (.load slot g) (some tag)
  | none, _ => s.answer tag .badArg
  | some _, none => s.answer tag .badArg

/-- SLOT.LOAD (R156). -/
def reqSlotLoad (h : ReqHead) (slot g : Byte) (s : State) : State := s.request h 0x51#8 none (ownSlotLoad h.tag slot g)

/-- SLOT_LOAD. -/
def execSlotLoad (h : ReqHead) (slot g : Byte) (s : State) : Host.Outcome State Fault Refusal :=
  s.taking (reqSlotLoad h slot g)

/-- SLOT.ERASE as its owner takes it (R160). -/
def ownSlotErase (tag slot : Byte) (s : State) : State :=
  match inRange 32 slot with
  | none => s.answer tag .badArg
  | some slot =>
    match s.slotGuard slot with
    | some st => s.answer tag st
    | none => s.accept (.erase slot) (some tag)

/-- SLOT.ERASE (R160). -/
def reqSlotErase (h : ReqHead) (slot : Byte) (s : State) : State := s.request h 0x52#8 none (ownSlotErase h.tag slot)

/-- SLOT_ERASE. -/
def execSlotErase (h : ReqHead) (slot : Byte) (s : State) : Host.Outcome State Fault Refusal := s.taking (reqSlotErase h slot)

/-- The reply of SLOT.PROTECT and SLOT.UNPROTECT: `protected` and `locked` (R140, R141). -/
def guardBytes (e : DirEntry) : List Byte := [flagByte e.isProtected, flagByte e.isLocked]

/-- SLOT.PROTECT as its owner takes it (R140). -/
def ownSlotProtect (tag slot : Byte) (s : State) : State :=
  match inRange 32 slot with
  | none => s.answer tag .badArg
  | some slot =>
    let e : DirEntry := { s.slot slot with isProtected := true }
    (s.setSlot slot e).answer tag .ok (guardBytes e)

/-- SLOT.PROTECT (R140). -/
def reqSlotProtect (h : ReqHead) (slot : Byte) (s : State) : State := s.request h 0x53#8 none (ownSlotProtect h.tag slot)

/-- SLOT_PROTECT. -/
def execSlotProtect (h : ReqHead) (slot : Byte) (s : State) : Host.Outcome State Fault Refusal :=
  s.taking (reqSlotProtect h slot)

/-- SLOT.UNPROTECT as its owner takes it (R141). -/
def ownSlotUnprotect (tag slot : Byte) (s : State) : State :=
  match inRange 32 slot with
  | none => s.answer tag .badArg
  | some slot =>
    if (s.slot slot).isLocked then s.answer tag .slotLocked
    else
      let e : DirEntry := { s.slot slot with isProtected := false }
      (s.setSlot slot e).answer tag .ok (guardBytes e)

/-- SLOT.UNPROTECT (R141). -/
def reqSlotUnprotect (h : ReqHead) (slot : Byte) (s : State) : State := s.request h 0x54#8 none (ownSlotUnprotect h.tag slot)

/-- SLOT_UNPROTECT. -/
def execSlotUnprotect (h : ReqHead) (slot : Byte) (s : State) : Host.Outcome State Fault Refusal :=
  s.taking (reqSlotUnprotect h slot)

/-- SLOT.LOCK as its owner takes it (R164). -/
def ownSlotLock (tag slot : Byte) (s : State) : State :=
  match inRange 32 slot with
  | none => s.answer tag .badArg
  | some slot => if s.psc.frozen then s.answer tag .frozen else s.accept (.lock slot) (some tag)

/-- SLOT.LOCK (R164). -/
def reqSlotLock (h : ReqHead) (slot : Byte) (s : State) : State := s.request h 0x55#8 none (ownSlotLock h.tag slot)

/-- SLOT_LOCK. -/
def execSlotLock (h : ReqHead) (slot : Byte) (s : State) : Host.Outcome State Fault Refusal := s.taking (reqSlotLock h slot)

/-- SLOT.FREEZE as its owner takes it (R144). -/
def ownSlotFreeze (tag : Byte) (s : State) : State :=
  State.answer { s with psc := { s.psc with frozen := true } } tag .ok

/-- SLOT.FREEZE (R144). -/
def reqSlotFreeze (h : ReqHead) (s : State) : State := s.request h 0x56#8 none (ownSlotFreeze h.tag)

/-- SLOT_FREEZE. -/
def execSlotFreeze (h : ReqHead) (s : State) : Host.Outcome State Fault Refusal := s.taking (reqSlotFreeze h)

/-- One entry of SLOT.LIST, 16 bytes (10.3.1). -/
def entryBytes (e : DirEntry) : List Byte :=
  [e.state.byte, flagByte e.isProtected, flagByte e.isLocked] ++
  optional 12 (match e.state with
    | .valid info => some (info.label.toList ++ halfBytes info.count ++ halfBytes info.length)
    | .blank => none
    | .invalid => none
    | .busy => none)

/-- The SLOT.LIST result, 513 bytes (R145, 10.3.1). -/
def listBytes (s : State) : List Byte := (upTo 32).flatMap (fun i => entryBytes (s.slot i)) ++ [flagByte s.psc.frozen]

/-- SLOT.LIST as its owner takes it (R145). -/
def ownSlotList (tag : Byte) (s : State) : State := s.answer tag .ok (listBytes s)

/-- SLOT.LIST (R145). -/
def reqSlotList (h : ReqHead) (s : State) : State := s.request h 0x57#8 none (ownSlotList h.tag)

/-- SLOT_LIST. -/
def execSlotList (h : ReqHead) (s : State) : Host.Outcome State Fault Refusal := s.taking (reqSlotList h)

/-- SETUP.SAVE as its owner takes it (R162). -/
def ownSetupSave (tag : Byte) (s : State) : State := s.accept .setupSave (some tag)

/-- SETUP.SAVE (R162). -/
def reqSetupSave (h : ReqHead) (s : State) : State := s.request h 0x60#8 none (ownSetupSave h.tag)

/-- SETUP_SAVE. -/
def execSetupSave (h : ReqHead) (s : State) : Host.Outcome State Fault Refusal := s.taking (reqSetupSave h)

/-! ## The store under PART.RESET SEQUENCER (R172) -/

/-- A queued operation a SEQUENCER reset cancels: saves and loads (R172). -/
def StoreOp.cancellable (op : StoreOp) : Bool :=
  match op.kind with
  | .save _ _ _ => true
  | .load _ _ => true
  | .erase _ => false
  | .setupSave => false
  | .lock _ => false

/-- A cancelled operation: its group is unpinned or EMPTY again, and it is answered ABORTED (R172). -/
def State.cancelOp (s : State) (op : StoreOp) : State :=
  match op.kind with
  | .save g _ _ => (s.unpin g).replyTo op .aborted
  | .load _ g => (s.release g).replyTo op .aborted
  | .erase _ => s
  | .setupSave => s
  | .lock _ => s

/-- An operation put among others by its acceptance (R172). -/
def insertByAge (op : StoreOp) : List StoreOp → List StoreOp
  | [] => [op]
  | x :: l => if op.seq < x.seq then op :: x :: l else x :: insertByAge op l

/-- The load in progress, if there is one. -/
def Engine.loading : Engine → Option StoreOp
  | .reading op => some op
  | .readingUnderSuspend op _ => some op
  | _ => none

/-- The operations a SEQUENCER reset cancels, oldest first (R172). -/
def Psc.cancelled (p : Psc) : List StoreOp :=
  let l := p.queue.filter StoreOp.cancellable
  match p.engine.loading with
  | none => l
  | some op => insertByAge op l

/-- The engine after the cut of a load in progress (R172, item 3). -/
def State.stopLoad (s : State) : State :=
  match s.psc.engine with
  | .reading _ => s.setEngine .idle
  | .readingUnderSuspend _ x => s.resume x
  | _ => s

/-- The store's part of a SEQUENCER reset (R172). -/
def State.cancelStore (s : State) : State :=
  let t := s.psc.cancelled.foldl State.cancelOp (s.setQueue (s.psc.queue.filter fun op => !op.cancellable))
  t.stopLoad.choose

/-! ## Abandoned array work (R131, R147, R173; log entry 9) -/

/-- An abandoned erase: page 0 is erased or not, and other bytes of the unit have some of their bits set: FREE
VALUES (R147). -/
def abandonErase (m : List Host.Cell) (u k : Nat) : List Host.Cell :=
  let past := Config.erasePastPageZero k
  m.filterMap fun c =>
    if c.1 / Config.unitBytes ≠ u then some c
    else if c.1 % Config.unitBytes < Config.pageBytes then if past then none else some c
    else
      let b := c.2 ||| Config.erasedBits k c.1
      if b = 0xFF#8 then none else some (c.1, b)

/-- The bytes an interrupted page program has left: those of the image with some bits not yet programmed (R147). -/
def partialPage (wanted : List Byte) (base k : Nat) : List Byte :=
  wanted.mapIdx fun i b => b ||| Config.unprogrammedBits k (base + i)

/-- The bytes of a unit's header: 32 of a slot, 16 of the setup record (10.5). -/
def headerLength (u : Nat) : Nat := if u = Config.setupUnit then Config.setupHeaderBytes else Config.headerBytes

/-- The marker of a unit's header. -/
def markerOf (u : Nat) : Val := if u = Config.setupUnit then setupMarker else slotMarker

/-- A page 0 of a unit whose header is partly programmed: it is neither blank nor carries the marker (R147, R180). -/
def headerPartly (u : Nat) (page : List Byte) : Bool :=
  !allErased (page.take (headerLength u)) && valAt page 0 != markerOf u

/-- A page 0 with the last marker byte still erased. -/
def markerShort (wanted : List Byte) : List Byte := wanted.set 3 0xFF#8

/-- An abandoned page program; of page 0 it leaves a header partly programmed, which reads INVALID (R147, R180). -/
def abandonPage (m : List Host.Cell) (w : Work) (p : Fin 16) (k : Nat) : List Host.Cell :=
  let u := w.op.unit
  let base := pageBase u p.val
  let wanted := imagePage w.image p.val
  let left := partialPage wanted base k
  Memory.programAll m base (if p = 0 ∧ !headerPartly u left then markerShort wanted else left)

/-- What the array and the fuse row hold when the store work in progress is abandoned (R131, R147, R173). Whether the
program of the page that is next had begun is a FREE VALUE (R132, R147). -/
def Nv.abandoned (nv : Nv) (e : Engine) (k : Nat) : Nv :=
  match e with
  | .erasing w => { nv with mem := abandonErase nv.mem w.op.unit k }
  | .suspendedErase w => { nv with mem := abandonErase nv.mem w.op.unit k }
  | .readingUnderSuspend _ (.erase w) => { nv with mem := abandonErase nv.mem w.op.unit k }
  | .programming w (p :: _) => if Config.pageBegun k then { nv with mem := abandonPage nv.mem w p k } else nv
  | .fusing _ slot => { nv with locks := nv.locks.set slot (nv.locks[slot] || Config.fuseBlown k) }
  | .programming _ [] => nv
  | .suspendedProgram _ _ => nv
  | .readingUnderSuspend _ (.program _ _) => nv
  | .reading _ => nv
  | .idle => nv

end Sys2Proof.Machine
end

