-- ==== Sys2Proof/Machine/Startup.lean ====
section
/-! DEFINITION. The Start-Up Controller (chapter 8): the start sequence, the setup record's checks and apply, resets,
the image read's end, and the transmitter's end. -/

namespace Sys2Proof.Machine

/-! ## The first step (R178, R179) -/

/-- The rate the straps choose (R189). -/
def baudOf (x : Straps) : Baud :=
  match x.baud1, x.baud0 with
  | false, false => .b115200
  | false, true => .b1000000
  | true, false => .b3000000
  | true, true => .b115200

/-- Every block at its reset values, the SUC and the UART's rate as given; the pins, the array and the model's own fields
stay (R27, R30, R35, R75, R102, R103, R173, R199). -/
def State.blocksReset (s : State) (suc : Suc) (rate : Baud) : State :=
  { s with
    hpt := Hpt.reset rate
    gtb := Gtb.reset
    lsq := Vector.replicate 8 Account.reset
    tgt := Vector.replicate 16 TargetEntry.reset
    lanes := Vector.replicate 4 Lane.reset
    sau := Sau.reset
    tlu := Vector.replicate 4 LoopEntry.reset
    psc := Psc.reset
    suc := suc }

/-- Store work in the array is abandoned where it stands (R173). -/
def State.abandonStore (s : State) : State := { s with nv := s.nv.abandoned s.psc.engine s.fresh, fresh := s.fresh + 1 }

/-- The SUC while RESETn holds the part (R178; log entry 21): no step of a start is under way. -/
def Suc.held (fresh : Bool) : Suc := { Suc.begun .pin with stage := .over, fresh }

/-- The first part of the rebuild: the fuse row is read, for the lock bits and the unique identifier (R136). -/
def State.fuseRead (s : State) : State :=
  { s with psc := { s.psc with uid := s.nv.id, dir := Vector.ofFn fun i => { s.slot i with isLocked := s.nv.locks[i] } } }

/-- A start sequence begins with a cause: store work is abandoned, every block takes its reset values, the straps are
sampled, and the rebuild is under way, its read of the fuse row made (R136, R178, R179, R189). So the identifier is there
before any request can be taken (R197). -/
def State.beginStart (s : State) (c : Cause) (straps : Straps) : State :=
  let t := s.abandonStore
  (State.blocksReset { t with pins := { t.pins with straps := straps } } (Suc.begun c) (baudOf straps)).fuseRead

/-- The part is held in its reset values; `fresh` as the first start after the supply came up is still to come (R178,
R174). The rate holds until the next start samples the straps (R189). -/
def State.hold (s : State) (fresh : Bool) : State := s.abandonStore.blocksReset (Suc.held fresh) s.hpt.baud

/-- The supply has come up: a start with cause POWER, at once or, with RESETn low, at its release (R174, R178). -/
def powerOn (straps : Straps) (s : State) : State :=
  let t : State := { s with pins := { s.pins with power := true, straps := straps } }
  if s.pins.resetn then t.beginStart .power straps else t.hold true

/-- POWER_ON. -/
def execPowerOn (straps : Straps) (s : State) : Host.Outcome State Fault Refusal := .next (powerOn straps s)

/-- The supply fails: everything but the array is lost (R129, R178). -/
def powerFail (s : State) : State := State.hold { s with pins := { s.pins with power := false } } true

/-- POWER_FAIL. -/
def execPowerFail (s : State) : Host.Outcome State Fault Refusal := .next (powerFail s)

/-- RESETn falls: the part is held in its reset values (R178). -/
def resetnAssert (s : State) : State := State.hold { s with pins := { s.pins with resetn := false } } s.suc.fresh

/-- RESETN_ASSERT. -/
def execResetnAssert (s : State) : Host.Outcome State Fault Refusal := .next (resetnAssert s)

/-- RESETn rises: a start begins when the supply is up, with cause PIN, or POWER for the first start after the supply
came up (R174, R178). -/
def resetnRelease (straps : Straps) (s : State) : State :=
  if s.pins.resetn then s
  else
    let t : State := { s with pins := { s.pins with resetn := true, straps := straps } }
    if s.pins.power then t.beginStart (if s.suc.fresh then .power else .pin) straps else t

/-- RESETN_RELEASE. -/
def execResetnRelease (straps : Straps) (s : State) : Host.Outcome State Fault Refusal :=
  .next (resetnRelease straps s)

/-- The rebuild of the directory has read the last header (R136); the read of the setup area is next (R180). -/
def directoryRebuild (s : State) : State :=
  if s.suc.stage = .rebuild then
    { s with
      psc :=
        { s.psc with
          dir := Vector.ofFn fun i => ⟨classifySlot s.nv.mem i, true, s.nv.locks[i]⟩
          frozen := false
          uid := s.nv.id }
      suc := { s.suc with stage := .setupRead } }
  else s

/-- DIRECTORY_REBUILD. -/
def execDirectoryRebuild (s : State) : Host.Outcome State Fault Refusal := s.taking directoryRebuild

/-! ## The setup record (R180, R181) -/

/-- A setup record in its typed fields. -/
structure Setup where
  lanes : List LaneSettings
  targets : List TargetCfg
  sync : List (EdgeSel × Half)
  loops : List (Bool × Bool × LoopCfg)
  designation : Option Designation
deriving DecidableEq, Repr

/-- The elements of a list, all present. -/
def allPresent {α : Type} : List (Option α) → Option (List α)
  | [] => some []
  | none :: _ => none
  | some a :: l => (allPresent l).map (a :: ·)

/-- The settings of one sync line in the body (10.5.2, R181). -/
def setupSyncAt (body : List Byte) (o : Nat) : Option (EdgeSel × Half) :=
  match edgeOf (byteAt body o) with
  | none => none
  | some e => if (halfAt body (o + 1)).toNat ≤ 6000 then some (e, halfAt body (o + 1)) else none

/-- One loop block of the body: configured, autostart, and the configuration when it is configured (R181, R203). -/
def setupLoopAt (body : List Byte) (o : Nat) : Option (Bool × Bool × LoopCfg) :=
  match flagOf (byteAt body o), flagOf (byteAt body (o + 37)) with
  | some true, some autostart =>
    (loopCfgOf (rawLoopAt body (o + 1) (byteAt body (o + 42)).toNat)).map fun c => (true, autostart, c)
  | some false, some autostart => some (false, autostart, { LoopCfg.reset with autostart })
  | none, _ => none
  | some _, none => none

/-- The fields of a setup body in their ranges (R181, 10.5.2): lanes at 0, targets at 20, sync lines at 164, loops at
170, the designation at 598. -/
def setupOf (body : List Byte) : Option Setup := do
  let lanes ← allPresent ((upTo 4).map fun l => laneSettingsOf (rawLaneAt body (5 * l.val)))
  let targets ← allPresent ((upTo 16).map fun t => targetCfgOf (rawTargetAt body (20 + 9 * t.val)))
  let sync ← allPresent [setupSyncAt body 164, setupSyncAt body 167]
  let loops ← allPresent ((upTo 4).map fun n => setupLoopAt body (170 + 107 * n.val))
  let designation ← designationOf (rawDesignationAt body 598)
  return ⟨lanes, targets, sync, loops, designation⟩

/-- No two enabled targets share a lane and an address (R181). -/
def addressesApart : List TargetCfg → Bool
  | [] => true
  | c :: l => addressesApart l && !(c.enabled && l.any fun d => d.enabled && d.lane == c.lane && d.address == c.address)

/-- The checks between fields: enabled targets fit the stored kind of their lane and have addresses of their own
(R181). -/
def Setup.consistent (x : Setup) : Bool :=
  x.targets.all (fun c => !c.enabled || c.fitsKind (x.lanes.getD c.lane.val Lane.reset.settings)) &&
  addressesApart x.targets

/-- What the setup area holds (R180): nothing, a record that fails, or one that is applied. -/
def readSetup (m : List Host.Cell) : SetupStatus × Option Setup :=
  let base := unitBase Config.setupUnit
  let header := Memory.readAll m base 16
  let body := Memory.readAll m (base + 16) Config.setupBodyBytes
  if allErased header then (.blank, none)
  else if valAt header 0 ≠ setupMarker ∨ byteAt header 4 ≠ 1#8 ∨ (halfAt header 6).toNat ≠ Config.setupBodyBytes then
    (.invalid, none)
  else if crc32 body ≠ valAt header 8 then (.invalid, none)
  else match setupOf body with
    | none => (.invalid, none)
    | some x => if x.consistent then (.applied, some x) else (.invalid, none)

/-- A loop takes its stored part: its autostart, and every configuration field when it is stored configured; its run
fields stay (R181). -/
def LoopEntry.withSetup (e : LoopEntry) (x : Bool × Bool × LoopCfg) : LoopEntry :=
  if x.1 then { e with configured := true, cfg := { x.2.2 with autostart := x.2.1 } }
  else { e with cfg := { e.cfg with autostart := x.2.1 } }

/-- A sync line takes its stored settings (R181, R59). -/
def SyncLine.withSetup (l : SyncLine) (x : Option (EdgeSel × Half)) : SyncLine :=
  match x with
  | none => l
  | some (e, w) => { l with edge := e, window := w }

/-- A record that passes is applied in one step (R181). -/
def State.applySetup (s : State) (x : Setup) : State :=
  { s with
    lanes := Vector.ofFn fun i => { s.lanes[i] with settings := x.lanes.getD i.val s.lanes[i].settings }
    tgt := Vector.ofFn fun i => ⟨x.targets.getD i.val s.tgt[i].cfg, none⟩
    sau :=
      { s.sau with
        line0 := s.sau.line0.withSetup x.sync[0]?
        line1 := s.sau.line1.withSetup x.sync[1]? }
    tlu := Vector.ofFn fun i =>
      match x.loops[i.val]? with
      | none => s.tlu[i]
      | some y => s.tlu[i].withSetup y
    suc := { s.suc with designation := x.designation } }

/-! ## Autostart, start load, N.START (R182 to R184) -/

/-- A loop's autostart result enters the report (R182). -/
def State.setAutostart (s : State) (n : Fin 4) (a : Autostart) : State :=
  { s with suc := { s.suc with report := { s.suc.report with autostart := s.suc.report.autostart.set n (some a) } } }

/-- A loop marked for autostart starts exactly as by LOOP.START (R182). -/
def State.autostart (s : State) (n : Fin 4) : State :=
  if (s.loop n).cfg.autostart then
    match s.startRefusal n with
    | some st => s.setAutostart n (.refused st)
    | none => (s.startLoop n).setAutostart n .started
  else s.setAutostart n .notMarked

/-- The start result with its data as one item: slot, line, skip, record count and label when ARMED (R177, R184; log
entry 15). -/
def resultBytes (r : Option StartResult) : List Byte :=
  match r with
  | none => 0#8 :: optional 13 none
  | some x =>
    x.byte :: optional 13 (match x with
      | .armed d count label =>
        some ([natByte d.slot.val, lineByte d.line, d.skip] ++ halfBytes count ++ label.toList)
      | .none => none
      | .slotBlank => none
      | .slotInvalid => none)

/-- The start report: cause, setup status, four autostart results, start result (R177, R184). -/
def reportBytes (r : StartReport) : List Byte :=
  [r.cause.byte, r.setup.byte] ++
  (upTo 4).map (fun n => match r.autostart[n] with | none => 0#8 | some a => a.byte) ++ resultBytes r.result

/-- The fifth step: the report is complete, N.START is queued, the phase is RUNNING (R184). -/
def State.finishStart (s : State) (r : StartResult) : State :=
  let report := { s.suc.report with result := some r }
  State.notify { s with suc := { s.suc with report := report, phase := .running, stage := .over } } 0x05#8
    (reportBytes report)

/-- The setup status is written (R180). -/
def State.setSetup (s : State) (x : SetupStatus) : State :=
  { s with suc := { s.suc with setup := x, report := { s.suc.report with setup := x } } }

/-- The fourth step: the internal load of the designated slot into group 0, or none and the end of the start (R171,
R183). -/
def State.startLoad (s : State) : State :=
  match s.suc.setup, s.suc.designation with
  | .applied, some d =>
    State.accept { s.reserve 0 with suc := { s.suc with stage := .load } } (.load d.slot 0) none
  | _, _ => s.finishStart .none

/-- The read of the setup area has ended: classification, apply, autostart, start load (R180 to R183). -/
def setupAreaRead (s : State) : State :=
  if s.suc.stage = .setupRead then
    let (status, x) := readSetup s.nv.mem
    let s := s.setSetup status
    let s := match x with | none => s | some x => s.applySetup x
    (((upTo 4).foldl State.autostart s).startLoad).settleLanes
  else s

/-- SETUP_AREA_READ. -/
def execSetupAreaRead (s : State) : Host.Outcome State Fault Refusal := s.taking setupAreaRead

/-- Start-up arming: exactly as a GROUP.ARM of the group taken at that moment, which needs READY (R66, R183). -/
def State.armStart (s : State) (d : Designation) : State :=
  if (s.group 0).state = .ready then s.armGroup 0 d.line d.skip .once else s

/-- The fourth step has its result; the fifth is due with it (R183, R184). -/
def State.lastStepDue (s : State) (r : StartResult) : State := { s with suc := { s.suc with stage := .due r } }

/-- The SUC takes the internal load's result as one step: group 0 is armed ONCE on READY (R183). A POOL_FULL does not
arise (log entry 28). -/
def State.startLoaded (s : State) (e : LoadEnd) : State :=
  match e, s.suc.designation with
  | .filled info _, some d => (s.armStart d).lastStepDue (.armed d info.count info.label)
  | .filled _ _, none => s.lastStepDue .none
  | .blank, _ => s.lastStepDue .slotBlank
  | .invalid, _ => s.lastStepDue .slotInvalid
  | .poolFull _, _ => s.lastStepDue .none

/-- The fifth step, when it is due (R184). -/
def State.lastStep (s : State) : State :=
  match s.suc.stage with
  | .due r => s.finishStart r
  | .rebuild | .setupRead | .load | .over => s

/-- What the part does while no command waits: the fifth step of a start, when a load's result left it due (R184, R188;
log entry 36). -/
def State.idled (s : State) : State :=
  match s.suc.stage with
  | .due r => if s.live then (s.finishStart r).arbitrated else s
  | .rebuild | .setupRead | .load | .over => s

/-- The internal load's result, with the fifth step of the start in the same step, or apart from it: edges, launches and
requests may then come between. Which of the two is a FREE VALUE (R184, R188; log entry 36). -/
def State.startStep (s : State) (e : LoadEnd) : State :=
  if Config.lastStepApart s.fresh then s.startLoaded e else (s.startLoaded e).lastStep

/-- The end of a load with, for the internal one, the SUC's steps (R157 to R159, R171, R183). -/
def State.loadOver (s : State) (op : StoreOp) : State :=
  match op.kind with
  | .load slot g =>
    let t := s.loadEnd op slot g
    if op.origin = none ∧ s.suc.stage = .load then t.startStep (s.loadResult slot) else t
  | .save _ _ _ => s
  | .erase _ => s
  | .setupSave => s
  | .lock _ => s

/-- An image read ends: the load's end, then the engine's choice (R157, R168). -/
def imageReadComplete (s : State) : State :=
  match s.psc.engine with
  | .reading op => (s.loadOver op).engineFree
  | .readingUnderSuspend op x => (s.loadOver op).chooseUnder x
  | _ => s

/-- IMAGE_READ_COMPLETE. -/
def execImageReadComplete (s : State) : Host.Outcome State Fault Refusal := s.taking imageReadComplete

/-! ## SETUP.START and SETUP.QUERY (R176, R177) -/

/-- SETUP.START as its owner takes it (R176). -/
def ownSetupStart (tag : Byte) (d : RawDesignation) (s : State) : State :=
  match designationOf d with
  | none => s.answer tag .badArg
  | some d => State.answer { s with suc := { s.suc with designation := d } } tag .ok

/-- SETUP.START (R176). -/
def reqSetupStart (h : ReqHead) (d : RawDesignation) (s : State) : State := s.request h 0x61#8 none (ownSetupStart h.tag d)

/-- SETUP_START. -/
def execSetupStart (h : ReqHead) (d : RawDesignation) (s : State) : Host.Outcome State Fault Refusal :=
  s.taking (reqSetupStart h d)

/-- The SETUP.QUERY result: the live designation, the setup status, the report (R177). -/
def setupQueryBytes (s : State) : List Byte :=
  designationBytes s.suc.designation ++ [s.suc.setup.byte] ++ reportBytes s.suc.report

/-- SETUP.QUERY as its owner takes it (R177). -/
def ownSetupQuery (tag : Byte) (s : State) : State := s.answer tag .ok (setupQueryBytes s)

/-- SETUP.QUERY (R177). -/
def reqSetupQuery (h : ReqHead) (s : State) : State := s.request h 0x62#8 none (ownSetupQuery h.tag)

/-- SETUP_QUERY. -/
def execSetupQuery (h : ReqHead) (s : State) : Host.Outcome State Fault Refusal := s.taking (reqSetupQuery h)

/-! ## PART.RESET (R186, R187) -/

/-- PART.RESET FULL as its owner takes it: the phase is STARTING, and the reply carries the mark of the reset (R187). -/
def ownPartResetFull (tag : Byte) (s : State) : State :=
  { s with suc := { s.suc with phase := .starting }, hpt := s.hpt.answer tag [Status.ok.byte] true }

/-- PART.RESET FULL (R187). -/
def reqPartResetFull (h : ReqHead) (s : State) : State := s.request h 0x72#8 none (ownPartResetFull h.tag)

/-- PART_RESET_FULL. -/
def execPartResetFull (h : ReqHead) (s : State) : Host.Outcome State Fault Refusal := s.taking (reqPartResetFull h)

/-- The groups and the pool return to their reset values, the arm list is empty, and open windows are closed (R28, R76,
R100). -/
def State.resetGroups (s : State) : State :=
  { s with
    gtb := Gtb.reset
    lsq := Vector.replicate 8 Account.reset
    sau := { line0 := { s.sau.line0 with opened := none }, line1 := { s.sau.line1 with opened := none }, arm := [] } }

/-- PART.RESET SEQUENCER as its owner takes it: the lanes, the store, the groups, then the reply (R186). -/
def ownPartResetSequencer (tag : Byte) (s : State) : State := (s.cutLanes.cancelStore.resetGroups).answer tag .ok

/-- PART.RESET SEQUENCER (R186). -/
def reqPartResetSequencer (h : ReqHead) (s : State) : State := s.request h 0x72#8 none (ownPartResetSequencer h.tag)

/-- PART_RESET_SEQUENCER. -/
def execPartResetSequencer (h : ReqHead) (s : State) : Host.Outcome State Fault Refusal :=
  s.taking (reqPartResetSequencer h)

/-- PART.RESET LANES as its owner takes it (R186). -/
def ownPartResetLanes (tag : Byte) (s : State) : State := s.cutLanes.answer tag .ok

/-- PART.RESET LANES (R186). -/
def reqPartResetLanes (h : ReqHead) (s : State) : State := s.request h 0x72#8 none (ownPartResetLanes h.tag)

/-- PART_RESET_LANES. -/
def execPartResetLanes (h : ReqHead) (s : State) : Host.Outcome State Fault Refusal := s.taking (reqPartResetLanes h)

/-- A loop under PART.RESET LOOPS: stopped, with `skip seen` cleared (R127). -/
def State.loopReset (s : State) (n : Fin 4) : State :=
  let s := s.stopLoop n
  s.setLoop n { s.loop n with skipSeen := false }

/-- PART.RESET LOOPS as its owner takes it (R127). -/
def ownPartResetLoops (tag : Byte) (s : State) : State := ((upTo 4).foldl State.loopReset s).answer tag .ok

/-- PART.RESET LOOPS (R186). -/
def reqPartResetLoops (h : ReqHead) (s : State) : State := s.request h 0x72#8 none (ownPartResetLoops h.tag)

/-- PART_RESET_LOOPS. -/
def execPartResetLoops (h : ReqHead) (s : State) : Host.Outcome State Fault Refusal := s.taking (reqPartResetLoops h)

/-- PART.RESET with its scope byte, as CHARACTER_ARRIVAL hands it on: another value is refused BAD_ARG (R186,
10.3.4). -/
def reqPartReset (h : ReqHead) (scope : Byte) (s : State) : State :=
  if scope = 0#8 then reqPartResetFull h s
  else if scope = 1#8 then reqPartResetSequencer h s
  else if scope = 2#8 then reqPartResetLanes h s
  else if scope = 3#8 then reqPartResetLoops h s
  else s.request h 0x72#8 none fun s => s.answer h.tag .badArg

/-! ## The transmitter's end (R187, R196) -/

/-- The transmitter becomes free (R196). When the command before was a partial reset whose first CUT notice joined behind
this frame with no reply queued, the frame can have ended inside the reset, and the head notice was then taken ahead of the
replies: whether it was so is a FREE VALUE (R206; log entry 5). -/
def State.freed (s : State) : State :=
  let h := { s.hpt with sending := none }
  if s.hpt.cut = .past then
    { s with hpt := if Config.endedInReset s.fresh then h.takeNotice else h, fresh := s.fresh + 1 }
  else { s with hpt := h }

/-- The last byte of a frame has been sent: the FULL reply's makes the reset act, with the straps as they then stand;
otherwise the transmitter is free (R187, R189, R196). -/
def transmitEnd (straps : Straps) (s : State) : State :=
  match s.hpt.sending with
  | none => s
  | some f =>
    if f.full then s.beginStart .request straps
    else { s.freed with pins := { s.pins with straps := straps } }

/-- TRANSMIT_END. -/
def execTransmitEnd (straps : Straps) (s : State) : Host.Outcome State Fault Refusal := s.taking (transmitEnd straps)

end Sys2Proof.Machine
end

