-- ==== Sys2Proof/Machine/Frames.lean ====
section
/-! DEFINITION. The receive assembly (R190), the code and length checks (R201), and the hand-over of a completed frame
to the request it carries (R191, R192). -/

namespace Sys2Proof.Machine

/-! ## Codes and lengths (R201, 10.3.1) -/

/-- The requests whose body length does not depend on the body: code and length (10.3.1). -/
def fixedLengths : List (Byte × Nat) :=
  [(0x10#8, 1), (0x12#8, 1), (0x13#8, 1), (0x15#8, 1), (0x16#8, 2), (0x17#8, 4), (0x18#8, 1), (0x19#8, 1), (0x1A#8, 1)] ++
  [(0x20#8, 10), (0x21#8, 1), (0x22#8, 1), (0x23#8, 3), (0x24#8, 6), (0x25#8, 1), (0x30#8, 4), (0x31#8, 1), (0x32#8, 1)] ++
  [(0x41#8, 1), (0x42#8, 1), (0x43#8, 1), (0x50#8, 10), (0x51#8, 2), (0x52#8, 1), (0x53#8, 1), (0x54#8, 1), (0x55#8, 1)] ++
  [(0x56#8, 0), (0x57#8, 0), (0x60#8, 0), (0x61#8, 4), (0x62#8, 0), (0x70#8, 0), (0x71#8, 0), (0x72#8, 1)]

/-- The length check of a request with a list: the count is read at an offset of the body, at most `most`, and fixes
the length (R201). -/
def countedLength (body : List Byte) (offset base each most : Nat) : Option Status :=
  match body[offset]? with
  | none => some .badLength
  | some n =>
    if n.toNat ≤ most ∧ body.length = base + each * n.toNat then none else some .badLength

/-- Check 4 of R192: the code first, the length second (R201). -/
def codeCheck (code : Byte) (body : List Byte) : Option Status :=
  if code = 0x11#8 then countedLength body 6 9 4 32
  else if code = 0x14#8 then countedLength body 2 3 4 32
  else if code = 0x40#8 then countedLength body 42 43 8 8
  else match fixedLengths.find? (·.1 == code) with
    | none => some .unknownCode
    | some x => if body.length = x.2 then none else some .badLength

/-! ## The request a frame carries (10.3.1) -/

/-- A group request, its items read from a body that has passed the length check (10.3.1). -/
def groupRequest (h : ReqHead) (code : Byte) (b : List Byte) (s : State) : State :=
  match code.toNat with
  | 0x10 => reqGroupOpen h (byteAt b 0) s
  | 0x11 => reqGroupAdd h (byteAt b 0) (rawRecordAt b 1 (byteAt b 6).toNat) s
  | 0x12 => reqGroupClose h (byteAt b 0) s
  | 0x13 => reqGroupDrop h (byteAt b 0) s
  | 0x14 => reqGroupEdit h (byteAt b 0) (byteAt b 1) (valuesAt b 3 (byteAt b 2).toNat) s
  | 0x15 => reqGroupQuery h (byteAt b 0) s
  | 0x16 => reqGroupRead h (byteAt b 0) (byteAt b 1) s
  | 0x17 => reqGroupArm h (byteAt b 0) (byteAt b 1) (byteAt b 2) (byteAt b 3) s
  | 0x18 => reqGroupDisarm h (byteAt b 0) s
  | 0x19 => reqGroupApply h (byteAt b 0) s
  | 0x1A => reqGroupAbort h (byteAt b 0) s
  | _ => s

/-- A target, lane or sync request (10.3.1). -/
def laneRequest (h : ReqHead) (code : Byte) (b : List Byte) (s : State) : State :=
  match code.toNat with
  | 0x20 => reqTargetSet h (byteAt b 0) (rawTargetAt b 1) s
  | 0x21 => reqTargetQuery h (byteAt b 0) s
  | 0x22 => reqTargetClear h (byteAt b 0) s
  | 0x23 => reqTargetRead h (byteAt b 0) (halfAt b 1) s
  | 0x24 => reqLaneSet h (byteAt b 0) (rawLaneAt b 1) s
  | 0x25 => reqLaneQuery h (byteAt b 0) s
  | 0x30 => reqSyncSet h (byteAt b 0) (byteAt b 1) (halfAt b 2) s
  | 0x31 => reqSyncPulse h (byteAt b 0) s
  | 0x32 => reqSyncQuery h (byteAt b 0) s
  | _ => s

/-- A loop request (10.3.1). -/
def loopRequest (h : ReqHead) (code : Byte) (b : List Byte) (s : State) : State :=
  match code.toNat with
  | 0x40 => reqLoopSet h (byteAt b 0) (rawLoopAt b 1 (byteAt b 42).toNat) s
  | 0x41 => reqLoopStart h (byteAt b 0) s
  | 0x42 => reqLoopStop h (byteAt b 0) s
  | 0x43 => reqLoopQuery h (byteAt b 0) s
  | _ => s

/-- A slot, setup or part request (10.3.1). -/
def storeRequest (h : ReqHead) (code : Byte) (b : List Byte) (s : State) : State :=
  match code.toNat with
  | 0x50 => reqSlotSave h (byteAt b 0) (byteAt b 1) (labelAt b 2) s
  | 0x51 => reqSlotLoad h (byteAt b 0) (byteAt b 1) s
  | 0x52 => reqSlotErase h (byteAt b 0) s
  | 0x53 => reqSlotProtect h (byteAt b 0) s
  | 0x54 => reqSlotUnprotect h (byteAt b 0) s
  | 0x55 => reqSlotLock h (byteAt b 0) s
  | 0x56 => reqSlotFreeze h s
  | 0x57 => reqSlotList h s
  | 0x60 => reqSetupSave h s
  | 0x61 => reqSetupStart h (rawDesignationAt b 0) s
  | 0x62 => reqSetupQuery h s
  | 0x70 => reqPartIdent h s
  | 0x71 => reqPartStatus h s
  | 0x72 => reqPartReset h (byteAt b 0) s
  | _ => s

/-- A completed frame: one that fails check 4 is refused as R192 orders; another is the request its code names. -/
def frameTaken (h : ReqHead) (code : Byte) (body : List Byte) (s : State) : State :=
  match codeCheck code body with
  | some st => s.request h code (some st) id
  | none =>
    if code.toNat < 0x20 then groupRequest h code body s
    else if code.toNat < 0x40 then laneRequest h code body s
    else if code.toNat < 0x50 then loopRequest h code body s
    else storeRequest h code body s

/-! ## The receive assembly (R190) -/

/-- The body length of a frame whose first four bytes after the marker are held (10.2). -/
def frameLength (bytes : List Byte) : Nat := (halfAt bytes 2).toNat

/-- The receive assembly takes a state. -/
def State.setRx (s : State) (x : Rx) : State := { s with hpt := { s.hpt with rx := x } }

/-- A completed frame is handed on, and the assembly hunts again (R190, R191). -/
def frameComplete (bytes : List Byte) (s : State) : State :=
  let n := frameLength bytes
  frameTaken ⟨byteAt bytes 0, crc16 (bytes.take (4 + n)) == halfAt bytes (4 + n)⟩ (byteAt bytes 1)
    ((bytes.drop 4).take n) (s.setRx .hunting)

/-- A frame being assembled takes a character; `bytes` holds those after the marker (R190). -/
def assemble (bytes : List Byte) (s : State) : State :=
  if bytes.length < 4 then s.setRx (.assembling bytes)
  else if Config.maxBody < frameLength bytes then s.setRx (.overlong (byteAt bytes 0) (byteAt bytes 1))
  else if bytes.length < 6 + frameLength bytes then s.setRx (.assembling bytes)
  else frameComplete bytes s

/-- A character has arrived: the gap timer restarts, and the assembly takes it as its state says (R190). -/
def characterArrival (c : Byte) (s : State) : State :=
  let s : State := { s with hpt := { s.hpt with gapTimer := true } }
  match s.hpt.rx with
  | .settling => s
  | .hunting => if c = 0xA5#8 then s.setRx (.assembling []) else s
  | .assembling bytes => assemble (bytes ++ [c]) s
  | .overlong _ _ => s

/-- CHARACTER_ARRIVAL. -/
def execCharacterArrival (c : Byte) (s : State) : Host.Outcome State Fault Refusal := s.taking (characterArrival c)

end Sys2Proof.Machine
end

