-- ==== Sys2Proof/Machine/Dispatch.lean ====
section
/-! DEFINITION. The meaning of every command. -/

namespace Sys2Proof.Machine

def exec (i : Instr) (s : State) : Host.Outcome State Fault Refusal :=
  match i with
  | .groupOpen h g => Sys2Proof.Machine.execGroupOpen h g s
  | .groupAdd h g r => Sys2Proof.Machine.execGroupAdd h g r s
  | .groupClose h g => Sys2Proof.Machine.execGroupClose h g s
  | .groupDrop h g => Sys2Proof.Machine.execGroupDrop h g s
  | .groupEdit h g index values => Sys2Proof.Machine.execGroupEdit h g index values s
  | .groupQuery h g => Sys2Proof.Machine.execGroupQuery h g s
  | .groupRead h g first => Sys2Proof.Machine.execGroupRead h g first s
  | .groupArm h g line skip mode => Sys2Proof.Machine.execGroupArm h g line skip mode s
  | .groupDisarm h g => Sys2Proof.Machine.execGroupDisarm h g s
  | .groupApply h g => Sys2Proof.Machine.execGroupApply h g s
  | .groupAbort h g => Sys2Proof.Machine.execGroupAbort h g s
  | .targetSet h t c => Sys2Proof.Machine.execTargetSet h t c s
  | .targetQuery h t => Sys2Proof.Machine.execTargetQuery h t s
  | .targetClear h t => Sys2Proof.Machine.execTargetClear h t s
  | .targetRead h t reg => Sys2Proof.Machine.execTargetRead h t reg s
  | .laneSet h n c => Sys2Proof.Machine.execLaneSet h n c s
  | .laneQuery h n => Sys2Proof.Machine.execLaneQuery h n s
  | .syncSet h line edge window => Sys2Proof.Machine.execSyncSet h line edge window s
  | .syncPulse h line => Sys2Proof.Machine.execSyncPulse h line s
  | .syncQuery h line => Sys2Proof.Machine.execSyncQuery h line s
  | .loopSet h n c => Sys2Proof.Machine.execLoopSet h n c s
  | .loopStart h n => Sys2Proof.Machine.execLoopStart h n s
  | .loopStop h n => Sys2Proof.Machine.execLoopStop h n s
  | .loopQuery h n => Sys2Proof.Machine.execLoopQuery h n s
  | .slotSave h g slot label => Sys2Proof.Machine.execSlotSave h g slot label s
  | .slotLoad h slot g => Sys2Proof.Machine.execSlotLoad h slot g s
  | .slotErase h slot => Sys2Proof.Machine.execSlotErase h slot s
  | .slotProtect h slot => Sys2Proof.Machine.execSlotProtect h slot s
  | .slotUnprotect h slot => Sys2Proof.Machine.execSlotUnprotect h slot s
  | .slotLock h slot => Sys2Proof.Machine.execSlotLock h slot s
  | .slotFreeze h => Sys2Proof.Machine.execSlotFreeze h s
  | .slotList h => Sys2Proof.Machine.execSlotList h s
  | .setupSave h => Sys2Proof.Machine.execSetupSave h s
  | .setupStart h d => Sys2Proof.Machine.execSetupStart h d s
  | .setupQuery h => Sys2Proof.Machine.execSetupQuery h s
  | .partIdent h => Sys2Proof.Machine.execPartIdent h s
  | .partStatus h => Sys2Proof.Machine.execPartStatus h s
  | .partResetFull h => Sys2Proof.Machine.execPartResetFull h s
  | .partResetSequencer h => Sys2Proof.Machine.execPartResetSequencer h s
  | .partResetLanes h => Sys2Proof.Machine.execPartResetLanes h s
  | .partResetLoops h => Sys2Proof.Machine.execPartResetLoops h s
  | .uartFramingError => Sys2Proof.Machine.execUartFramingError s
  | .gapTimerExpiry => Sys2Proof.Machine.execGapTimerExpiry s
  | .transmitEnd straps => Sys2Proof.Machine.execTransmitEnd straps s
  | .powerOn straps => Sys2Proof.Machine.execPowerOn straps s
  | .powerFail => Sys2Proof.Machine.execPowerFail s
  | .resetnAssert => Sys2Proof.Machine.execResetnAssert s
  | .resetnRelease straps => Sys2Proof.Machine.execResetnRelease straps s
  | .directoryRebuild => Sys2Proof.Machine.execDirectoryRebuild s
  | .setupAreaRead => Sys2Proof.Machine.execSetupAreaRead s
  | .syncLevelChange line level => Sys2Proof.Machine.execSyncLevelChange line level s
  | .syncFilterSettled line => Sys2Proof.Machine.execSyncFilterSettled line s
  | .windowExpiry line => Sys2Proof.Machine.execWindowExpiry line s
  | .transactionEnd lane e => Sys2Proof.Machine.execTransactionEnd lane e s
  | .clockHoldTimeout lane => Sys2Proof.Machine.execClockHoldTimeout lane s
  | .pollGapExpiry lane => Sys2Proof.Machine.execPollGapExpiry lane s
  | .waitExpiry lane => Sys2Proof.Machine.execWaitExpiry lane s
  | .eraseComplete left => Sys2Proof.Machine.execEraseComplete left s
  | .pageProgramComplete left => Sys2Proof.Machine.execPageProgramComplete left s
  | .imageReadComplete => Sys2Proof.Machine.execImageReadComplete s
  | .fuseProgramComplete blown => Sys2Proof.Machine.execFuseProgramComplete blown s
  | .suspendEffect => Sys2Proof.Machine.execSuspendEffect s
  | .resumeGuardExpiry => Sys2Proof.Machine.execResumeGuardExpiry s
  | .characterArrival c => Sys2Proof.Machine.execCharacterArrival c s

end Sys2Proof.Machine
end

