-- ==== Sys2Proof/Machine/Step.lean ====
section
/-! DEFINITION. The step: the command at the front of the queue is run with the queue's rest; on an empty queue the
block idles, but for the last step of a start. -/

namespace Sys2Proof.Machine

/-- The state with a queue of commands. -/
def State.withPending (s : State) (q : List Instr) : State := { s with pending := q }

/-- One step. An empty queue idles, but for a last step of a start left due (DESIGN CHOICE, log entries 1 and 36). -/
def step (s : State) : Host.Outcome State Fault Refusal :=
  match s.pending with
  | [] => .next s.idled
  | c :: q => exec c (s.withPending q)

/-- The command a word spells, put at the front of the queue; nothing where the word spells none. -/
def State.withFetchWord (s : State) (nbits w : Nat) : State :=
  match decodeTableWord nbits w with
  | none => s
  | some c => s.withPending (c :: s.pending)

end Sys2Proof.Machine
end

