-- ==== Sys2Proof/Safety.lean ====
section
/-! DEFINITION. What statements about the part are made of: when a request is accepted and what its reply leaves, and
the laws the part keeps. -/

namespace Sys2Proof.Machine

/-! ## Requests -/

/-- A frame passes every check of R191 and R192 but the phase's: the part takes events, a place is free, the CRC
matches, the tag is not 0 and not outstanding, and fewer than four requests are outstanding. -/
abbrev State.hears (s : State) (h : ReqHead) : Prop :=
  s.live = true ∧ s.hpt.placesUsed < Config.replyPlaces ∧ h.crcOk = true ∧ h.tag ≠ 0#8 ∧
  s.hpt.outstanding.any (fun o => o.tag == h.tag) = false ∧ s.hpt.outstanding.length < Config.maxOutstanding

/-- A request is accepted whatever its code: it is heard, and the phase is RUNNING (R192). -/
abbrev State.admits (s : State) (h : ReqHead) : Prop := s.hears h ∧ s.suc.phase = .running

/-- The state after a request that is answered at once: its reply has joined the queue, and the transmitter has taken
a frame if it was free (R193, R194, R196). Nothing else changes. -/
def State.replied (s : State) (h : ReqHead) (code : Byte) (st : Status) (result : List Byte) : State :=
  State.arbitrated { s with hpt := s.hpt.enqueue ⟨h.tag, code ||| 0x80#8, st.byte :: result, false⟩ }

/-- The request a command is: its head, its code, and what the length check of R201 says of it. -/
def requestOf : Instr → Option (ReqHead × Byte × Option Status)
  | .groupOpen h _ => some (h, 0x10#8, none)
  | .groupAdd h _ r => some (h, 0x11#8, addLength r)
  | .groupClose h _ => some (h, 0x12#8, none)
  | .groupDrop h _ => some (h, 0x13#8, none)
  | .groupEdit h _ _ values => some (h, 0x14#8, editLength values)
  | .groupQuery h _ => some (h, 0x15#8, none)
  | .groupRead h _ _ => some (h, 0x16#8, none)
  | .groupArm h _ _ _ _ => some (h, 0x17#8, none)
  | .groupDisarm h _ => some (h, 0x18#8, none)
  | .groupApply h _ => some (h, 0x19#8, none)
  | .groupAbort h _ => some (h, 0x1A#8, none)
  | .targetSet h _ _ => some (h, 0x20#8, none)
  | .targetQuery h _ => some (h, 0x21#8, none)
  | .targetClear h _ => some (h, 0x22#8, none)
  | .targetRead h _ _ => some (h, 0x23#8, none)
  | .laneSet h _ _ => some (h, 0x24#8, none)
  | .laneQuery h _ => some (h, 0x25#8, none)
  | .syncSet h _ _ _ => some (h, 0x30#8, none)
  | .syncPulse h _ => some (h, 0x31#8, none)
  | .syncQuery h _ => some (h, 0x32#8, none)
  | .loopSet h _ c => some (h, 0x40#8, loopLength c)
  | .loopStart h _ => some (h, 0x41#8, none)
  | .loopStop h _ => some (h, 0x42#8, none)
  | .loopQuery h _ => some (h, 0x43#8, none)
  | .slotSave h _ _ _ => some (h, 0x50#8, none)
  | .slotLoad h _ _ => some (h, 0x51#8, none)
  | .slotErase h _ => some (h, 0x52#8, none)
  | .slotProtect h _ => some (h, 0x53#8, none)
  | .slotUnprotect h _ => some (h, 0x54#8, none)
  | .slotLock h _ => some (h, 0x55#8, none)
  | .slotFreeze h => some (h, 0x56#8, none)
  | .slotList h => some (h, 0x57#8, none)
  | .setupSave h => some (h, 0x60#8, none)
  | .setupStart h _ => some (h, 0x61#8, none)
  | .setupQuery h => some (h, 0x62#8, none)
  | .partIdent h => some (h, 0x70#8, none)
  | .partStatus h => some (h, 0x71#8, none)
  | .partResetFull h => some (h, 0x72#8, none)
  | .partResetSequencer h => some (h, 0x72#8, none)
  | .partResetLanes h => some (h, 0x72#8, none)
  | .partResetLoops h => some (h, 0x72#8, none)
  | .uartFramingError | .gapTimerExpiry | .transmitEnd _ | .powerOn _ | .powerFail | .resetnAssert | .resetnRelease _
  | .directoryRebuild | .setupAreaRead | .syncLevelChange _ _ | .syncFilterSettled _ | .windowExpiry _
  | .transactionEnd _ _ | .clockHoldTimeout _ | .pollGapExpiry _ | .waitExpiry _ | .eraseComplete _
  | .pageProgramComplete _ | .imageReadComplete | .fuseProgramComplete _ | .suspendEffect | .resumeGuardExpiry
  | .characterArrival _ => none

/-- A number or a code of the request is out of its range, where its owner checks that before anything else: group 0..7
(R13), target 0..15 (R32 to R34, R54), lane 0..3 and lane settings (R36, R37), line, arm mode, edge and window (R62 to
R64, R66), loop 0..3 (R105 to R107, R110), slot 0..31 (R140, R141, R152, R156, R160, R164), designation (R176). -/
def badNumber : Instr → Bool
  | .groupOpen _ g | .groupAdd _ g _ | .groupClose _ g | .groupDrop _ g | .groupEdit _ g _ _ | .groupQuery _ g
  | .groupRead _ g _ | .groupDisarm _ g | .groupApply _ g | .groupAbort _ g => 8 ≤ g.toNat
  | .groupArm _ g line _ mode => 8 ≤ g.toNat || 2 ≤ line.toNat || 2 ≤ mode.toNat
  | .targetSet _ t _ | .targetQuery _ t | .targetClear _ t | .targetRead _ t _ => 16 ≤ t.toNat
  | .laneSet _ n c => 4 ≤ n.toNat || (laneSettingsOf c).isNone
  | .laneQuery _ n => 4 ≤ n.toNat
  | .syncSet _ line edge window => 2 ≤ line.toNat || 3 ≤ edge.toNat || 6000 < window.toNat
  | .syncPulse _ line | .syncQuery _ line => 2 ≤ line.toNat
  | .loopSet _ n _ | .loopStart _ n | .loopStop _ n | .loopQuery _ n => 4 ≤ n.toNat
  | .slotSave _ g slot _ | .slotLoad _ slot g => 32 ≤ slot.toNat || 8 ≤ g.toNat
  | .slotErase _ slot | .slotProtect _ slot | .slotUnprotect _ slot | .slotLock _ slot => 32 ≤ slot.toNat
  | .setupStart _ d => 2 ≤ d.present.toNat || (d.present == 1#8 && (32 ≤ d.slot.toNat || 2 ≤ d.line.toNat))
  | _ => false

/-- The record items of a GROUP.ADD on the wire (table 10.4). -/
def recordWire (r : RawRecord) : List Byte :=
  [r.form, r.which] ++ halfBytes r.word ++ [r.small, natByte r.values.length] ++ halfBytes r.attempts ++
    r.values.flatMap valBytes

/-- The configuration items of a TARGET.SET on the wire (R30). -/
def targetWire (r : RawTarget) : List Byte :=
  [r.enabled, r.lane, r.address, r.regWidth, r.dataWidth, r.autoInc, r.verify, r.retries, r.timeout]

/-- The items of a LOOP.SET on the wire, from `line` on (table 10.5.2). -/
def loopWire (r : RawLoop) : List Byte :=
  [r.line, r.period, r.measTarget] ++ halfBytes r.measReg ++ [r.outTarget] ++ halfBytes r.outReg ++
  valBytes r.setpoint ++ halfBytes r.step ++ valBytes r.narrow ++ valBytes r.wide ++ valBytes r.min ++ valBytes r.max ++
  [r.polarity, r.fast] ++ valBytes r.initialOutput ++ [r.autostart, r.followerPresent, r.followerTarget] ++
  halfBytes r.followerReg ++ [natByte r.points.length] ++ r.points.flatMap pointBytes

/-- The body of the frame a request comes in (10.3.1). -/
def bodyOf : Instr → Option (List Byte)
  | .groupOpen _ g | .groupClose _ g | .groupDrop _ g | .groupQuery _ g | .groupDisarm _ g | .groupApply _ g
  | .groupAbort _ g => some [g]
  | .groupAdd _ g r => some (g :: recordWire r)
  | .groupEdit _ g index values => some ([g, index, natByte values.length] ++ values.flatMap valBytes)
  | .groupRead _ g first => some [g, first]
  | .groupArm _ g line skip mode => some [g, line, skip, mode]
  | .targetSet _ t c => some (t :: targetWire c)
  | .targetQuery _ t | .targetClear _ t => some [t]
  | .targetRead _ t reg => some (t :: halfBytes reg)
  | .laneSet _ n c => some ([n, c.kind] ++ halfBytes c.speed ++ [c.modePresent, c.mode])
  | .laneQuery _ n => some [n]
  | .syncSet _ line edge window => some ([line, edge] ++ halfBytes window)
  | .syncPulse _ line | .syncQuery _ line => some [line]
  | .loopSet _ n c => some (n :: loopWire c)
  | .loopStart _ n | .loopStop _ n | .loopQuery _ n => some [n]
  | .slotSave _ g slot label => some ([g, slot] ++ label.toList)
  | .slotLoad _ slot g => some [slot, g]
  | .slotErase _ slot | .slotProtect _ slot | .slotUnprotect _ slot | .slotLock _ slot => some [slot]
  | .slotFreeze _ | .slotList _ | .setupSave _ | .setupQuery _ | .partIdent _ | .partStatus _ => some []
  | .setupStart _ d => some [d.present, d.slot, d.line, d.skip]
  | .partResetFull _ => some [0#8]
  | .partResetSequencer _ => some [1#8]
  | .partResetLanes _ => some [2#8]
  | .partResetLoops _ => some [3#8]
  | _ => none

/-- The commands a part without its supply or with RESETn low still takes: the supply, RESETn, and the levels of the
sync pins (R178). -/
def takenWhenDead : Instr → Bool
  | .powerOn _ | .powerFail | .resetnAssert | .resetnRelease _ | .syncLevelChange _ _ => true
  | _ => false

/-! ## Laws of the part -/

/-- The records held by all eight groups. -/
def Gtb.held (x : Gtb) : Nat := ((upTo 8).map fun g => x.groups[g].records.length).sum

/-- The pool law: free records and held records make 256 (R1). -/
abbrev State.poolLaw (s : State) : Prop := s.gtb.free + s.gtb.held = Config.poolSize

/-- A group in EMPTY or LOADING holds no records (R4). -/
abbrev State.emptyLaw (s : State) : Prop :=
  ∀ g, (s.group g).state = .empty ∨ (s.group g).state = .loading → (s.group g).records = []

/-- The host limits: four outstanding requests, eight places of the reply queue, sixteen notices (R193 to R195). -/
abbrev State.hostLimits (s : State) : Prop :=
  s.hpt.outstanding.length ≤ Config.maxOutstanding ∧ s.hpt.placesUsed ≤ Config.replyPlaces ∧
  s.hpt.notices.length ≤ Config.maxNotices

/-- The arm-list law: a group at most once in the list, every ARMED group in it, every group in it ARMED or LAUNCHING;
and a launch account with records pending belongs to a LAUNCHING group (R65, R78). -/
abbrev State.armLaw (s : State) : Prop :=
  (s.sau.arm.map (·.group)).Nodup ∧
  (∀ a ∈ s.sau.arm, (s.group a.group).state = .armed ∨ (s.group a.group).state = .launching) ∧
  (∀ g, (s.group g).state = .armed → g ∈ s.sau.arm.map (·.group)) ∧
  (∀ g, (s.account g).pending ≠ 0 → (s.group g).state = .launching)

/-- A slot whose `locked` is set has `protected` set (R139). -/
abbrev State.guardLaw (s : State) : Prop := ∀ i, (s.slot i).isLocked = true → (s.slot i).isProtected = true

/-- The operation an erase or program of the array is being made for, in progress or suspended (R149). -/
def Engine.work : Engine → Option StoreOp
  | .erasing w => some w.op
  | .programming w _ => some w.op
  | .suspendedErase w => some w.op
  | .suspendedProgram w _ => some w.op
  | .readingUnderSuspend _ (.erase w) => some w.op
  | .readingUnderSuspend _ (.program w _) => some w.op
  | .idle => none
  | .reading _ => none
  | .fusing _ _ => none

/-- The slot an erase or program under way changes: none for a setup save. -/
def StoreOp.slotWorked (op : StoreOp) : Option (Fin 32) :=
  match op.kind with
  | .save _ slot _ => some slot
  | .erase slot => some slot
  | .load _ _ => none
  | .setupSave => none
  | .lock _ => none

/-- What keeps a locked slot's content: while no directory has been read, nothing is under way or queued and the phase
is STARTING; once it has been read, `locked` mirrors the lock bits; and no erase or program is under way for a slot
whose lock bit is set, nor for a load or a lock (R131, R143, R149). -/
abbrev State.lockLaw (s : State) : Prop :=
  (s.live = false ∨ s.suc.stage = .rebuild → s.psc.engine = .idle ∧ s.psc.queue = []) ∧
  (s.suc.stage = .rebuild → s.suc.phase = .starting) ∧
  (s.live = true → s.suc.stage ≠ .rebuild → ∀ i : Fin 32, (s.slot i).isLocked = s.nv.locks[i]) ∧
  (∀ op, s.psc.engine.work = some op →
    (op.kind = .setupSave ∨ ∃ i, op.slotWorked = some i ∧ s.nv.locks[i] = false))

/-- The two arrays hold the same bytes in a unit. -/
abbrev sameUnit (m m' : List Host.Cell) (u : Nat) : Prop :=
  ∀ o < Config.unitBytes, Memory.read m' (unitBase u + o) = Memory.read m (unitBase u + o)

/-- The erase under way or suspended, with its work (R149). -/
def Engine.eraseWork : Engine → Option Work
  | .erasing w => some w
  | .suspendedErase w => some w
  | .readingUnderSuspend _ (.erase w) => some w
  | .readingUnderSuspend _ (.program _ _) => none
  | .programming _ _ => none
  | .suspendedProgram _ _ => none
  | .idle => none
  | .reading _ => none
  | .fusing _ _ => none

/-- The program under way or suspended, with its work and the pages left (R149). -/
def Engine.programWork : Engine → Option (Work × List (Fin 16))
  | .programming w pages => some (w, pages)
  | .suspendedProgram w pages => some (w, pages)
  | .readingUnderSuspend _ (.program w pages) => some (w, pages)
  | .readingUnderSuspend _ (.erase _) => none
  | .erasing _ => none
  | .suspendedErase _ => none
  | .idle => none
  | .reading _ => none
  | .fusing _ _ => none

/-- The work law: while an erase is under way or suspended its unit's marker reads cleared (R130); while a program is,
page 0 of its unit reads erased and is the last page left (R154); and an image to be written begins with its unit's
marker (10.5). -/
abbrev State.workLaw (s : State) : Prop :=
  (∀ w, s.psc.engine.eraseWork = some w →
    Memory.readAll s.nv.mem (unitBase w.op.unit) 4 = [0#8, 0#8, 0#8, 0#8] ∧
    ((∃ i, w.op.kind = .erase i) ∨ valAt w.image 0 = markerOf w.op.unit)) ∧
  (∀ x, s.psc.engine.programWork = some x →
    Memory.readAll s.nv.mem (unitBase x.1.op.unit) Config.pageBytes = List.replicate Config.pageBytes 0xFF#8 ∧
    x.2.getLast? = some 0 ∧ 0 ∉ x.2.dropLast ∧ valAt x.1.image 0 = markerOf x.1.op.unit)

/-- The lane law: an IDLE lane has an empty queue (R40). -/
abbrev State.laneLaw (s : State) : Prop := ∀ l, (s.lane l).flight = none → (s.lane l).queue = []

/-- The jobs a launch of the group puts on a lane: its records of that lane, in the order of their indices (R80,
R81). -/
def State.launchJobs (s : State) (g : Fin 8) (l : Fin 4) : List Job :=
  ((s.group g).records.zipIdx.filter fun p => s.recordLane p.1 == l).map fun p => .record g p.2 p.1

/-- The accounting law: the pending count of a group is the number of its records queued plus the number in flight
(R78). -/
abbrev State.pendingLaw (s : State) : Prop :=
  ∀ g, (s.account g).pending = s.queuedCount (Job.ofGroup g) + s.flightCount (Job.ofGroup g)

/-- The jobs law: a loop's `jobs out` is the number of its jobs queued and in flight, two at most (R111); a loop that does
not run has no cycle in flight, and one that runs has a cycle in flight exactly while it has a job out; a cycle in MEASURE
has its one measure job out, and the jobs of a cycle in OUTPUT are writes (R104, R112, R116). -/
abbrev State.jobsLaw (s : State) : Prop :=
  ∀ n,
    let x := s.loop n
    let writes := s.queuedCount (Job.writeOfLoop n) + s.flightCount (Job.writeOfLoop n)
    x.jobsOut = s.queuedCount (Job.ofLoop n) + s.flightCount (Job.ofLoop n) ∧ x.jobsOut ≤ 2 ∧
    (x.state.running = false → x.cycle = .none) ∧ (x.state.running = true → (x.cycle = .none ↔ x.jobsOut = 0)) ∧
    (x.cycle = .measure → x.jobsOut = 1 ∧ writes = 0) ∧ (x.cycle = .output → writes = x.jobsOut)

/-- What a cut reports of its jobs, in their order, with `notice` the N.DONE of a group: a read job is answered ABORTED,
and the last record of a group brings its notice, which a free transmitter leaves for the reset's reply (R57, R99, R206). -/
def cutReports (notice : Fin 8 → Notice) : Hpt → List Job → Hpt
  | h, [] => h
  | h, .read tag _ _ :: l => cutReports notice (h.answer tag [Status.aborted.byte] false) l
  | h, .loop _ _ _ _ _ :: l => cutReports notice h l
  | h, .record g _ _ :: l =>
    if l.any (Job.ofGroup g) then cutReports notice h l else cutReports notice (h.join (notice g) 0).cutRaised l

/-! ## Well-formed fields, for the encodings -/

/-- A record within the ranges of its form (R6 to R12). -/
def Record.inRange : Record → Bool
  | .single _ _ _ => true
  | .run _ _ vs => 2 ≤ vs.length && vs.length ≤ 32
  | .scatter _ _ _ vs => 1 ≤ vs.length && vs.length ≤ 32
  | .poll _ _ mask expect attempts gap =>
    1 ≤ attempts.toNat && attempts.toNat ≤ 1024 && gap != 0#8 && expect &&& ~~~mask == 0#32
  | .wait _ d => d != 0#16
  | .setpoint _ _ => true

/-- A target configuration within the ranges of R30. -/
def TargetCfg.inRange (c : TargetCfg) : Bool :=
  (match c.address with
    | .i2c a => 0x08 ≤ a.toNat && a.toNat ≤ 0x77
    | .selectA => true
    | .selectB => true) && c.timeout != some 0#8

end Sys2Proof.Machine
end

