-- ==== Sys2Proof/WellFormed.lean ====
section
/-! DEFINITION. Which commands the outside world can send: what the types of the operands do not say already. -/

namespace Sys2Proof

/-- A list whose length the wire carries in one count byte (table 10.3.1, table 10.4). -/
def countFits {α : Type} (l : List α) : Bool := l.length < 256

/-- The cells that the verify of an erase finds: offsets inside the unit, none of them erased, each named once (R130). -/
def residueOk (left : List (Nat × Byte)) : Bool :=
  left.all (fun c => c.1 < 4096 && c.2 != 0xFF#8) && decide ((left.map (·.1)).Nodup)

/-- A page is 256 bytes (R129). -/
def pageOk : Option (List Byte) → Bool
  | none => true
  | some l => l.length == 256

/-- The well-formed commands. Values that the part itself refuses (BAD_ARG, BAD_LENGTH) are well formed. -/
def WellFormed : Instr → Bool
  | .groupAdd _ _ r => countFits r.values
  | .groupEdit _ _ _ values => countFits values
  | .loopSet _ _ c => countFits c.points
  | .eraseComplete left => residueOk left
  | .pageProgramComplete left => pageOk left
  | .groupOpen _ _ | .groupClose _ _ | .groupDrop _ _ | .groupQuery _ _ | .groupRead _ _ _ | .groupArm _ _ _ _ _
  | .groupDisarm _ _ | .groupApply _ _ | .groupAbort _ _ | .targetSet _ _ _ | .targetQuery _ _ | .targetClear _ _
  | .targetRead _ _ _ | .laneSet _ _ _ | .laneQuery _ _ | .syncSet _ _ _ _ | .syncPulse _ _ | .syncQuery _ _
  | .loopStart _ _ | .loopStop _ _ | .loopQuery _ _ | .slotSave _ _ _ _ | .slotLoad _ _ _ | .slotErase _ _
  | .slotProtect _ _ | .slotUnprotect _ _ | .slotLock _ _ | .slotFreeze _ | .slotList _ | .setupSave _
  | .setupStart _ _ | .setupQuery _ | .partIdent _ | .partStatus _ | .partResetFull _ | .partResetSequencer _
  | .partResetLanes _ | .partResetLoops _ | .uartFramingError | .gapTimerExpiry | .transmitEnd _ | .powerOn _
  | .powerFail | .resetnAssert | .resetnRelease _ | .directoryRebuild | .setupAreaRead | .syncLevelChange _ _
  | .syncFilterSettled _ | .windowExpiry _ | .transactionEnd _ _ | .clockHoldTimeout _ | .pollGapExpiry _
  | .waitExpiry _ | .imageReadComplete | .fuseProgramComplete _ | .suspendEffect | .resumeGuardExpiry
  | .characterArrival _ => true

end Sys2Proof
end

