-- ==== Sys2Proof/Certificates/Slice0/Obligations.lean ====
section
/-! DEFINITION. The statements for the provers. `s.admits h` says that the part takes the frame `h` and passes its
request on (R191, R192); `s.replied h code st result` is `s` with the reply queued and the transmitter given a frame if
it was free; a number in range is written as the byte of an index. -/

section Statements

open Sys2Proof Sys2Proof.Machine

/-! ## Steps, frames and the Host Port -/

/-- A step takes the command at the front of the queue and runs it with the queue's rest; on an empty queue the block
idles (the model's own queue and choice, log entry 1), but for a last step of a start left due (the model's choice, log
entry 36). -/
def Obligations.StepRunsFrontCommand : Prop :=
  (∀ (c : Instr) (q : List Instr) (s : State), step (s.withPending (c :: q)) = exec c (s.withPending q)) ∧
  ∀ s : State, s.pending = [] →
    ((s.live = false ∨ ∀ r, s.suc.stage ≠ .due r) → step s = .next s) ∧
    ∀ r, s.suc.stage = .due r → s.live = true → step s = .next (s.finishStart r).arbitrated

/-- Every command, in every state and with every operand, ends in a next state, and leaves the queue of commands as it
is: the spec describes no event that stops the part. A part without its supply, or with RESETn low, takes no event
(R178). That a sync pin of such a part still takes its level, and nothing else changes, is the model's choice (log
entry 4). -/
def Obligations.EveryCommandAnswersNext : Prop :=
  (∀ (c : Instr) (s : State), ∃ t, exec c s = .next t ∧ t.pending = s.pending) ∧
  ∀ s : State, s.live = false →
    (∀ c, takenWhenDead c = false → exec c s = .next s) ∧
    ∀ l x, exec (.syncLevelChange l x) s = .next (s.setPinLevel l x)

/-- The checks of R191 and R192, in their order, for every request: a frame with no place is dropped; else the first
check that fails gives the refusal, and nothing but the reply queue and the transmitter changes. That the step ends
with the arbiter is the model's form of R196 (log entry 5). -/
def Obligations.RequestsRefusedInOrder : Prop :=
  ∀ (c : Instr) (h : ReqHead) (code : Byte) (check : Option Status) (s : State),
    requestOf c = some (h, code, check) → s.live = true →
    (8 ≤ s.hpt.placesUsed → exec c s = .next s.arbitrated) ∧
    (s.hpt.placesUsed < 8 →
      (h.crcOk = false → exec c s = .next (s.replied h code .badFrame [])) ∧
      (h.crcOk = true →
        (h.tag = 0#8 → exec c s = .next (s.replied h code .badTag [])) ∧
        (h.tag ≠ 0#8 →
          ((∃ o ∈ s.hpt.outstanding, o.tag = h.tag) → exec c s = .next (s.replied h code .tagInUse [])) ∧
          ((∀ o ∈ s.hpt.outstanding, o.tag ≠ h.tag) →
            (4 ≤ s.hpt.outstanding.length → exec c s = .next (s.replied h code .busy [])) ∧
            (s.hpt.outstanding.length < 4 →
              (∀ st, check = some st → exec c s = .next (s.replied h code st [])) ∧
              (check = none → s.suc.phase = .starting → code ≠ 0x70#8 → code ≠ 0x71#8 →
                exec c s = .next (s.replied h code .starting [])))))))

/-- A number or a code out of range is refused BAD_ARG, and nothing else of the part changes (R13, R32 to R34, R36,
R37, R54, R62 to R64, R66, R105 to R107, R110, R140, R141, R152, R156, R160, R164, R176). -/
def Obligations.NumbersOutOfRangeRefused : Prop :=
  ∀ (c : Instr) (h : ReqHead) (code : Byte) (s : State),
    requestOf c = some (h, code, none) → badNumber c = true → s.admits h →
    exec c s = .next (s.replied h code .badArg [])

/-- Every step keeps the host limits: four outstanding requests, eight places, sixteen notices (R193 to R195); and none
leaves a notice counted as raised in it, or the mark of a reset as made in it (the model's own, log entries 38 and 5). -/
def Obligations.HostLimitsKept : Prop :=
  ∀ s t : State, step s = .next t →
    (s.hostLimits → t.hostLimits) ∧ (s.raised = 0 → t.raised = 0) ∧ (s.hpt.cut ≠ .raised → t.hpt.cut ≠ .raised)

/-- The state after power-on reset meets every law whose keeping is stated elsewhere here. -/
def Obligations.ResetKeepsEveryLaw : Prop :=
  State.reset.hostLimits ∧ State.reset.poolLaw ∧ State.reset.emptyLaw ∧ State.reset.armLaw ∧ State.reset.pendingLaw ∧
  State.reset.guardLaw ∧ State.reset.raised = 0 ∧ State.reset.hpt.cut ≠ .raised ∧ State.reset.lockLaw ∧
  State.reset.laneLaw ∧ State.reset.jobsLaw ∧ State.reset.workLaw ∧ Memory.wf State.reset.nv.mem

/-- The end of a frame: the FULL reply's starts the part afresh; otherwise the oldest reply is taken, else the head
notice with the notice-lost flag, which is cleared (R187, R195, R196). A notice joins the tail of the queue, or ahead of
notices that other blocks raised in the same step and it arrives together with, by a free value (R195; log entry 38); with 16 waiting one is dropped.
A notice that joins while a frame is being sent or a reply is queued waits; one that finds the transmitter free may be
taken at once, before a reply that joins later in the step, by a free value (R196, R206; log entry 5). A CUT notice is not:
it goes ahead of its reset's reply only when the frame being sent ends inside the reset, which is a free value at the frame's
end (R206; log entry 5). A request's reply, whenever it comes, joins the tail with the code and the tag of its outstanding
entry, which it removes; without an entry there is none, nor for an internal store operation (R151, R193, R194). TXD is high
while no frame is sent, and carries a frame's characters back to back (R189). The strap levels are those sampled (R189); the
bytes of a frame are those of 10.2. The strap operand outside a start is the model's (log entry 8). -/
def Obligations.TransmitterTakesRepliesFirst : Prop :=
  (∀ (tag code : Byte) (body : List Byte),
    frameBytes tag code body =
      [0xA5#8, tag, code] ++ natHalf body.length ++ body ++ halfBytes (crc16 ([tag, code] ++ natHalf body.length ++ body))) ∧
  (∀ c : Byte, charLevels c =
    [false, c.getLsbD 0, c.getLsbD 1, c.getLsbD 2, c.getLsbD 3, c.getLsbD 4, c.getLsbD 5, c.getLsbD 6, c.getLsbD 7, true]) ∧
  (∀ h : Hpt, (h.sending = none → h.txd = [true]) ∧ ∀ f, h.sending = some f → h.txd = f.bytes.flatMap charLevels) ∧
  (∀ (s : State) (tag : Byte) (st : Status) (result : List Byte),
    ((∀ o ∈ s.hpt.outstanding, o.tag ≠ tag) → s.answer tag st result = s) ∧
    (∀ front o back, s.hpt.outstanding = front ++ o :: back → o.tag = tag → (∀ x ∈ front, x.tag ≠ tag) →
      s.answer tag st result =
        { s with hpt := { s.hpt with
          outstanding := front ++ back
          replies := s.hpt.replies ++ [⟨tag, o.code ||| 0x80#8, st.byte :: result, false⟩] } }) ∧
    ∀ op : StoreOp, (op.origin = none → s.replyTo op st result = s) ∧
      (op.origin = some tag → s.replyTo op st result = s.answer tag st result)) ∧
  ∀ (s : State) (straps : Straps) (f : Sending), s.live = true → s.hpt.sending = some f →
    let pins := { s.pins with straps := straps }
    (f.full = true → exec (.transmitEnd straps) s = .next (s.beginStart .request straps).arbitrated) ∧
    (f.full = false →
      let ends (h : Hpt) (fresh : Nat) : Prop := exec (.transmitEnd straps) s =
        .next { s with pins := pins, raised := 0, hpt := { h with cut := s.hpt.cut.aged }, fresh := fresh }
      let noticeFirst : Prop := s.hpt.cut = .past ∧ Config.endedInReset s.fresh = true
      let drawn := if s.hpt.cut = .past then s.fresh + 1 else s.fresh
      (∀ r rs, s.hpt.replies = r :: rs → (s.hpt.notices = [] ∨ ¬ noticeFirst) →
        ends { s.hpt with replies := rs, sending := some ⟨frameBytes r.tag r.code r.body, r.full⟩ } drawn) ∧
      (∀ n ns, s.hpt.notices = n :: ns → (s.hpt.replies = [] ∨ noticeFirst) →
        ends { s.hpt with
            notices := ns, lost := false
            sending := some ⟨frameBytes 0#8 n.code (flagByte s.hpt.lost :: n.payload), false⟩ } drawn) ∧
      (s.hpt.replies = [] → s.hpt.notices = [] → ends { s.hpt with sending := none } drawn)) ∧
    ∀ (code : Byte) (payload : List Byte), ∃ front back : List Notice,
      s.hpt.notices = front ++ back ∧ back.length ≤ s.raised ∧
      (∀ m ∈ back, m.code ≠ code ∧ m.code ≠ 0x03#8 ∧
        ¬ (code = 0x01#8 ∧ m.code = 0x02#8 ∧ payload.head? = m.payload.head?)) ∧
      let all := front ++ ⟨code, payload⟩ :: back
      let joined : Hpt :=
        if s.hpt.notices.length < 16 then { s.hpt with notices := all }
        else { s.hpt with notices := all.dropLast, lost := true }
      let left (h : Hpt) : State :=
        { s with
          hpt := h, raised := if s.hpt.notices.length < 16 then s.raised + 1 else s.raised, fresh := s.fresh + 1 }
      let free : State := { s with hpt := { s.hpt with sending := none } }
      s.notify code payload = left joined ∧
      s.notify code payload true = left (if s.hpt.replies = [] then { joined with cut := .raised } else joined) ∧
      free.notify code payload true = left { joined with sending := none } ∧
      (s.hpt.replies = [] → ∀ n ns, joined.notices = n :: ns →
        let took : Hpt := { s.hpt with
          notices := ns, lost := false
          sending := some ⟨frameBytes 0#8 n.code (flagByte joined.lost :: n.payload), false⟩ }
        free.notify code payload =
          left (if Config.noticeAtOnce s.fresh = true then took else { joined with sending := none })) ∧
      (s.hpt.replies ≠ [] → free.notify code payload = left { joined with sending := none })

/-- The receive assembly in its four states (R190): characters, framing errors, gap expiries, and the frame it hands
on with its CRC check made (R191). What 10 bit times of RXD come to: a character of 8 data bits, the least significant
first, or, with the stop bit low, a framing error (R189). The hand-over inside the step of the last character is the model's choice (log
entry 2). -/
def Obligations.ReceiveAssemblyMoves : Prop :=
  (∀ (c : Byte) (stop : Bool),
    heard [false, c.getLsbD 0, c.getLsbD 1, c.getLsbD 2, c.getLsbD 3, c.getLsbD 4, c.getLsbD 5, c.getLsbD 6, c.getLsbD 7, stop] =
      some (if stop = true then .characterArrival c else .uartFramingError)) ∧
  ∀ (s : State) (c : Byte), s.live = true →
    let timed : State := { s with hpt := { s.hpt with gapTimer := true } }
    let hunts : State := { s with hpt := { s.hpt with rx := .hunting, gapTimer := false } }
    exec .uartFramingError s = .next (timed.setRx .settling).arbitrated ∧
    (s.hpt.gapTimer = true →
      (∀ tag code, s.hpt.rx = .overlong tag code →
        (s.hpt.placesUsed < 8 → exec .gapTimerExpiry s = .next (hunts.replied ⟨tag, false⟩ code .badFrame [])) ∧
        (8 ≤ s.hpt.placesUsed → exec .gapTimerExpiry s = .next hunts.arbitrated)) ∧
      ((s.hpt.rx = .settling ∨ s.hpt.rx = .hunting ∨ ∃ bytes, s.hpt.rx = .assembling bytes) →
        exec .gapTimerExpiry s = .next hunts.arbitrated)) ∧
    ((s.hpt.rx = .settling ∨ ∃ tag code, s.hpt.rx = .overlong tag code) →
      exec (.characterArrival c) s = .next timed.arbitrated) ∧
    (s.hpt.rx = .hunting →
      (c = 0xA5#8 → exec (.characterArrival c) s = .next (timed.setRx (.assembling [])).arbitrated) ∧
      (c ≠ 0xA5#8 → exec (.characterArrival c) s = .next timed.arbitrated)) ∧
    (∀ bytes, s.hpt.rx = .assembling bytes →
      (bytes.length + 1 < 4 → exec (.characterArrival c) s = .next (timed.setRx (.assembling (bytes ++ [c]))).arbitrated) ∧
      (4 ≤ bytes.length + 1 →
        let n := (halfAt (bytes ++ [c]) 2).toNat
        (600 < n →
          exec (.characterArrival c) s =
            .next (timed.setRx (.overlong (byteAt (bytes ++ [c]) 0) (byteAt (bytes ++ [c]) 1))).arbitrated) ∧
        (n ≤ 600 → bytes.length + 1 < 6 + n →
          exec (.characterArrival c) s = .next (timed.setRx (.assembling (bytes ++ [c]))).arbitrated)) ∧
      (∀ tag code body crc, body.length ≤ 600 →
        bytes ++ [c] = [tag, code] ++ natHalf body.length ++ body ++ halfBytes crc →
        exec (.characterArrival c) s =
          .next (frameTaken ⟨tag, crc16 ([tag, code] ++ natHalf body.length ++ body) == crc⟩ code body
            (timed.setRx .hunting)).arbitrated))

/-- A frame whose body is the request's items, laid out as 10.3.1 gives them, does what the request's command does: no
item of any of the 41 requests is dropped or read from another place (R200 to R202). A frame with a code of no request,
or with another length than its code's, is refused UNKNOWN_CODE or BAD_LENGTH in its place among the checks (R192,
R201), and a PART.RESET with another scope BAD_ARG (R186). That the frame's owner works in the step of the frame's end
is the model's choice (log entry 2). -/
def Obligations.FrameCarriesItsRequest : Prop :=
  let fixed : List (Byte × Nat) :=
    [(0x10#8, 1), (0x12#8, 1), (0x13#8, 1), (0x15#8, 1), (0x16#8, 2), (0x17#8, 4), (0x18#8, 1), (0x19#8, 1), (0x1A#8, 1)] ++
    [(0x20#8, 10), (0x21#8, 1), (0x22#8, 1), (0x23#8, 3), (0x24#8, 6), (0x25#8, 1), (0x30#8, 4), (0x31#8, 1), (0x32#8, 1)] ++
    [(0x41#8, 1), (0x42#8, 1), (0x43#8, 1), (0x50#8, 10), (0x51#8, 2), (0x52#8, 1), (0x53#8, 1), (0x54#8, 1), (0x55#8, 1)] ++
    [(0x56#8, 0), (0x57#8, 0), (0x60#8, 0), (0x61#8, 4), (0x62#8, 0), (0x70#8, 0), (0x71#8, 0), (0x72#8, 1)]
  let counted (body : List Byte) (offset base each most : Nat) : Option Status :=
    let n := (byteAt body offset).toNat
    if offset < body.length ∧ n ≤ most ∧ body.length = base + each * n then none else some .badLength
  (∀ (c : Instr) (h : ReqHead) (code : Byte) (body : List Byte) (s : State),
    requestOf c = some (h, code, none) → bodyOf c = some body → s.taking (frameTaken h code body) = exec c s) ∧
  (∀ body : List Byte,
    (∀ code : Byte, code ∉ fixed.map (·.1) → code ≠ 0x11#8 → code ≠ 0x14#8 → code ≠ 0x40#8 →
      codeCheck code body = some .unknownCode) ∧
    (∀ x ∈ fixed, codeCheck x.1 body = if body.length = x.2 then none else some .badLength) ∧
    codeCheck 0x11#8 body = counted body 6 9 4 32 ∧ codeCheck 0x14#8 body = counted body 2 3 4 32 ∧
    codeCheck 0x40#8 body = counted body 42 43 8 8) ∧
  (∀ (s : State) (h : ReqHead) (code : Byte) (body : List Byte) (st : Status), s.live = true →
    codeCheck code body = some st →
    let inUse : Prop := ∃ o ∈ s.hpt.outstanding, o.tag = h.tag
    let refused (x : Status) : Prop := s.taking (frameTaken h code body) = .next (s.replied h code x [])
    (8 ≤ s.hpt.placesUsed → s.taking (frameTaken h code body) = .next s.arbitrated) ∧
    (s.hpt.placesUsed < 8 →
      (h.crcOk = false → refused .badFrame) ∧
      (h.crcOk = true → h.tag = 0#8 → refused .badTag) ∧
      (h.crcOk = true → h.tag ≠ 0#8 → inUse → refused .tagInUse) ∧
      (h.crcOk = true → h.tag ≠ 0#8 → ¬ inUse → 4 ≤ s.hpt.outstanding.length → refused .busy) ∧
      (h.crcOk = true → h.tag ≠ 0#8 → ¬ inUse → s.hpt.outstanding.length < 4 → refused st))) ∧
  ∀ (s : State) (h : ReqHead) (scope : Byte), 4 ≤ scope.toNat →
    (s.admits h → s.taking (frameTaken h 0x72#8 [scope]) = .next (s.replied h 0x72#8 .badArg [])) ∧
    (s.hears h → s.suc.phase = .starting →
      s.taking (frameTaken h 0x72#8 [scope]) = .next (s.replied h 0x72#8 .starting []))

/-- The two check codes give the values R205 names over the bytes of "123456789". -/
def Obligations.CheckCodesOfTheSpec : Prop :=
  crc16 [0x31#8, 0x32#8, 0x33#8, 0x34#8, 0x35#8, 0x36#8, 0x37#8, 0x38#8, 0x39#8] = 0x29B1#16 ∧
  crc32 [0x31#8, 0x32#8, 0x33#8, 0x34#8, 0x35#8, 0x36#8, 0x37#8, 0x38#8, 0x39#8] = 0xCBF43926#32

/-- PART.IDENT and PART.STATUS are answered in both phases and change nothing, the status counting the request itself
(R185, R197, R198); SETUP.START changes the live designation only, and SETUP.QUERY nothing (R176, R177); PART.RESET
FULL sets the phase STARTING and queues the reply whose end is the reset (R187). The start report lies as cause, setup
status, four autostart results, start result with its data (R177, R204), an absent result sent as 0. The layout of the SETUP.QUERY result
and the sizes of the three counts in the PART.STATUS result are the model's (log entry 15). -/
def Obligations.PartAndSetupRequests : Prop :=
  (∀ (s : State) (h : ReqHead), s.hears h →
    exec (.partIdent h) s =
      .next (s.replied h 0x70#8 .ok (halfBytes 0x3A71#16 ++ halfBytes 0x0804#16 ++ [1#8] ++ idBytes s.psc.uid ++
        [32#8, 16#8] ++ halfBytes 256#16 ++ [16#8] ++ halfBytes 256#16 ++ [32#8] ++ [4#8, 16#8] ++ halfBytes 600#16)) ∧
    exec (.partStatus h) s =
      .next (s.replied h 0x71#8 .ok ([s.suc.phase.byte, s.suc.setup.byte] ++
        (upTo 8).map (fun g => (s.group g).state.byte) ++ (upTo 4).map (fun l => (s.lane l).state.byte) ++
        [s.psc.engine.byte, natByte s.psc.queue.length, natByte (s.hpt.outstanding.length + 1),
         natByte s.hpt.notices.length, flagByte s.hpt.lost]))) ∧
  (∀ r : StartReport, reportBytes r =
    [r.cause.byte, r.setup.byte] ++
      r.autostart.toList.map (fun x => match x with
        | none => 0#8
        | some .notMarked => 0xF0#8
        | some .started => 0xF1#8
        | some (.refused st) => st.byte) ++
      (match r.result with
        | none => List.replicate 15 0#8
        | some .none => List.replicate 15 0#8
        | some .slotBlank => 0x33#8 :: List.replicate 14 0#8
        | some .slotInvalid => 0x34#8 :: List.replicate 14 0#8
        | some (.armed d count label) =>
          [1#8, 1#8, natByte d.slot.val, lineByte d.line, d.skip] ++ halfBytes count ++ label.toList)) ∧
  ∀ (s : State) (h : ReqHead), s.admits h →
    (∀ r : RawDesignation, r.present = 0#8 →
      exec (.setupStart h r) s =
        .next (State.replied { s with suc := { s.suc with designation := none } } h 0x61#8 .ok [])) ∧
    (∀ (i : Fin 32) (line : Line) (skip : Byte),
      exec (.setupStart h ⟨1#8, natByte i.val, lineByte line, skip⟩) s =
        .next (State.replied { s with suc := { s.suc with designation := some ⟨i, line, skip⟩ } } h 0x61#8 .ok [])) ∧
    exec (.setupQuery h) s =
      .next (s.replied h 0x62#8 .ok
        (optional 3 (s.suc.designation.map fun d => [natByte d.slot.val, lineByte d.line, d.skip]) ++
          [s.suc.setup.byte] ++ reportBytes s.suc.report)) ∧
    exec (.partResetFull h) s =
      .next (State.arbitrated { s with
        suc := { s.suc with phase := .starting }
        hpt := s.hpt.enqueue ⟨h.tag, 0xF2#8, [Status.ok.byte], true⟩ })

/-! ## Groups and the pool -/

/-- GROUP.OPEN (R16): taken in EMPTY, refused WRONG_STATE in every other state. An EMPTY group holds no records (R4),
which is the second premise. -/
def Obligations.GroupOpenTakenInEmpty : Prop :=
  ∀ (s : State) (h : ReqHead) (g : Fin 8), s.admits h →
    ((s.group g).state = .empty → (s.group g).records = [] →
      exec (.groupOpen h (natByte g.val)) s =
        .next ((s.setGroup g { s.group g with state := .opened, records := [] }).replied h 0x10#8 .ok [])) ∧
    ((s.group g).state ≠ .empty →
      exec (.groupOpen h (natByte g.val)) s = .next (s.replied h 0x10#8 .wrongState []))

/-- GROUP.ADD (R17): the four checks in their order, and the record appended with the index of the count before. -/
def Obligations.GroupAddAppendsRecord : Prop :=
  ∀ (s : State) (h : ReqHead) (r : RawRecord), s.admits h → r.values.length ≤ 32 →
    (∀ b : Byte, 8 ≤ b.toNat → exec (.groupAdd h b r) s = .next (s.replied h 0x11#8 .badArg [])) ∧
    ∀ g : Fin 8,
      ((s.group g).state ≠ .opened →
        exec (.groupAdd h (natByte g.val) r) s = .next (s.replied h 0x11#8 .wrongState [])) ∧
      ((s.group g).state = .opened →
        (s.recordTaken r = none → exec (.groupAdd h (natByte g.val) r) s = .next (s.replied h 0x11#8 .badArg [])) ∧
        ∀ x, s.recordTaken r = some x →
          (s.gtb.free = 0 → exec (.groupAdd h (natByte g.val) r) s = .next (s.replied h 0x11#8 .poolFull [])) ∧
          (s.gtb.free ≠ 0 →
            exec (.groupAdd h (natByte g.val) r) s =
              .next (State.replied
                { s with gtb :=
                  { groups := s.gtb.groups.set g { s.group g with records := (s.group g).records ++ [x] }
                    free := s.gtb.free - 1 } }
                h 0x11#8 .ok [natByte (s.group g).records.length])))

/-- Which records a GROUP.ADD takes, form by form, against the target entry as it stands (R6 to R12, R14, R15). -/
def Obligations.RecordChecksByForm : Prop :=
  ∀ (s : State) (reg attempts : Half) (small : Byte) (vs : List Val),
    (∀ t : Fin 16,
      let c := (s.target t).cfg
      let inWidth : Bool := vs.all fun v => v.toNat < 2 ^ (8 * c.dataWidth.bytes)
      let taken (form : Byte) := s.recordTaken ⟨form, natByte t.val, reg, small, attempts, vs⟩
      taken 1#8 =
        (if vs.length = 1 ∧ reg.toNat ≤ c.regWidth.last ∧ inWidth then
          some (.single t reg (vs.headD 0#32)) else none) ∧
      taken 2#8 =
        (if 2 ≤ vs.length ∧ vs.length ≤ 32 ∧ reg.toNat + (vs.length - 1) ≤ c.regWidth.last ∧
            inWidth ∧ c.autoInc = true then
          some (.run t reg vs) else none) ∧
      (small = 1#8 → taken 3#8 =
        (if 1 ≤ vs.length ∧ vs.length ≤ 32 ∧ reg.toNat + (vs.length - 1) ≤ c.regWidth.last ∧
            inWidth then some (.scatter t reg .up vs) else none)) ∧
      (small = 0#8 → taken 3#8 =
        (if 1 ≤ vs.length ∧ vs.length ≤ 32 ∧ reg.toNat ≤ c.regWidth.last ∧
            inWidth then some (.scatter t reg .stay vs) else none)) ∧
      (small = 0xFF#8 → taken 3#8 =
        (if 1 ≤ vs.length ∧ vs.length ≤ 32 ∧ reg.toNat ≤ c.regWidth.last ∧ vs.length - 1 ≤ reg.toNat ∧
            inWidth then some (.scatter t reg .down vs) else none)) ∧
      (small ≠ 1#8 → small ≠ 0#8 → small ≠ 0xFF#8 → taken 3#8 = none) ∧
      taken 4#8 =
        (if vs.length = 2 ∧ reg.toNat ≤ c.regWidth.last ∧ inWidth ∧
            vs.getD 1 0#32 &&& ~~~(vs.getD 0 0#32) = 0#32 ∧ 1 ≤ attempts.toNat ∧ attempts.toNat ≤ 1024 ∧
            1 ≤ small.toNat then
          some (.poll t reg (vs.getD 0 0#32) (vs.getD 1 0#32) attempts small) else none)) ∧
    (∀ l : Fin 4, s.recordTaken ⟨5#8, natByte l.val, reg, small, attempts, vs⟩ =
      (if vs = [] ∧ 1 ≤ reg.toNat then some (.wait l reg) else none)) ∧
    (∀ n : Fin 4, s.recordTaken ⟨6#8, natByte n.val, reg, small, attempts, vs⟩ =
      (if vs.length = 1 then some (.setpoint n (vs.headD 0#32)) else none)) ∧
    (∀ form which : Byte,
      (form.toNat = 0 ∨ 7 ≤ form.toNat ∨ 16 ≤ which.toNat ∨ (5 ≤ form.toNat ∧ 4 ≤ which.toNat)) →
      s.recordTaken ⟨form, which, reg, small, attempts, vs⟩ = none)

/-- GROUP.CLOSE (R18): its three checks in their order, and READY with the record count. -/
def Obligations.GroupCloseMovesToReady : Prop :=
  ∀ (s : State) (h : ReqHead), s.admits h →
    (∀ b : Byte, 8 ≤ b.toNat → exec (.groupClose h b) s = .next (s.replied h 0x12#8 .badArg [])) ∧
    ∀ g : Fin 8,
      ((s.group g).state ≠ .opened → exec (.groupClose h (natByte g.val)) s = .next (s.replied h 0x12#8 .wrongState [])) ∧
      ((s.group g).state = .opened → (s.group g).records = [] →
        exec (.groupClose h (natByte g.val)) s = .next (s.replied h 0x12#8 .emptyGroup [])) ∧
      ((s.group g).state = .opened → (s.group g).records ≠ [] →
        exec (.groupClose h (natByte g.val)) s =
          .next ((s.setGroup g { s.group g with state := .ready }).replied h 0x12#8 .ok
            (natHalf (s.group g).records.length)))

/-- GROUP.DROP (R19): its three checks in their order, and the group EMPTY with its records returned. -/
def Obligations.GroupDropReleasesRecords : Prop :=
  ∀ (s : State) (h : ReqHead), s.admits h →
    (∀ b : Byte, 8 ≤ b.toNat → exec (.groupDrop h b) s = .next (s.replied h 0x13#8 .badArg [])) ∧
    ∀ g : Fin 8,
      let e := s.group g
      (e.state ≠ .opened → e.state ≠ .ready →
        exec (.groupDrop h (natByte g.val)) s = .next (s.replied h 0x13#8 .wrongState [])) ∧
      (e.state = .opened ∨ e.state = .ready → e.pins ≠ 0 →
        exec (.groupDrop h (natByte g.val)) s = .next (s.replied h 0x13#8 .groupPinned [])) ∧
      (e.state = .opened ∨ e.state = .ready → e.pins = 0 →
        exec (.groupDrop h (natByte g.val)) s =
          .next (State.replied
            { s with gtb :=
              { groups := s.gtb.groups.set g
                  { e with
                    state := .empty, records := [], lastOutcome := .none, late := false, overrunSeen := false
                    done := 0, failed := 0, skipped := 0, withdrawn := 0, firstFailure := none, launchEdge := none }
                free := s.gtb.free + e.records.length } }
            h 0x13#8 .ok (natHalf (s.gtb.free + e.records.length))))

/-- GROUP.EDIT (R14, R20): its checks, and the new list in the record, which keeps its form and its other fields. That the
target is asked for its register width and `auto-inc` too follows R14, where R20's table names the data width (the model's
reading, log entry 33). -/
def Obligations.GroupEditReplacesValues : Prop :=
  ∀ (s : State) (h : ReqHead) (index : Byte) (vs : List Val), s.admits h → vs.length ≤ 32 →
    (∀ b : Byte, 8 ≤ b.toNat → exec (.groupEdit h b index vs) s = .next (s.replied h 0x14#8 .badArg [])) ∧
    (∀ g : Fin 8,
      let e := s.group g
      (e.state ≠ .ready → e.state ≠ .armed →
        exec (.groupEdit h (natByte g.val) index vs) s = .next (s.replied h 0x14#8 .wrongState [])) ∧
      (e.state = .ready ∨ e.state = .armed →
        (e.records.length ≤ index.toNat →
          exec (.groupEdit h (natByte g.val) index vs) s = .next (s.replied h 0x14#8 .badArg [])) ∧
        ∀ r, e.records[index.toNat]? = some r →
          (r.edited s.tgt vs = none →
            exec (.groupEdit h (natByte g.val) index vs) s = .next (s.replied h 0x14#8 .badArg [])) ∧
          ∀ x, r.edited s.tgt vs = some x →
            exec (.groupEdit h (natByte g.val) index vs) s =
              .next ((s.setGroup g { e with records := e.records.set index.toNat x }).replied h 0x14#8 .ok []))) ∧
    (∀ (t : Fin 16) (reg : Half) (old : Val) (olds : List Val) (st : Stride),
      let c := (s.target t).cfg
      let fits := vs.all c.dataWidth.admits
      (Record.single t reg old).edited s.tgt vs =
        (if vs.length = 1 ∧ fits ∧ reg.toNat ≤ c.regWidth.last then some (.single t reg (vs.headD 0#32)) else none) ∧
      (Record.run t reg olds).edited s.tgt vs =
        (if vs.length = olds.length ∧ fits ∧ c.autoInc ∧ Stride.up.rangeFits c.regWidth reg vs.length then
          some (.run t reg vs) else none) ∧
      (Record.scatter t reg st olds).edited s.tgt vs =
        (if vs.length = olds.length ∧ fits ∧ st.rangeFits c.regWidth reg vs.length then some (.scatter t reg st vs)
          else none) ∧
      ∀ mask expect attempts gap, (Record.poll t reg mask expect attempts gap).edited s.tgt vs = none) ∧
    (∀ (l : Fin 4) (d : Half) (old : Val),
      (Record.wait l d).edited s.tgt vs =
        (if vs.length = 1 ∧ 1 ≤ (vs.headD 0#32).toNat ∧ (vs.headD 0#32).toNat ≤ 65535 then
          some (.wait l ((vs.headD 0#32).setWidth 16)) else none) ∧
      (Record.setpoint l old).edited s.tgt vs = (if vs.length = 1 then some (.setpoint l (vs.headD 0#32)) else none))

/-- GROUP.QUERY and GROUP.READ report and change nothing (R23, R24); the launch fields lie as 10.6 lays them out, the arm-list
entry as R204 does, and a record as table 10.4 does, its unused bytes 0 (R202). -/
def Obligations.GroupReadsChangeNothing : Prop :=
  (∀ x : GroupEntry,
    x.launchBytes =
      [x.lastOutcome.byte, (if x.late then 1#8 else 0#8) + (if x.overrunSeen then 2#8 else 0#8)] ++
      natHalf x.done ++ natHalf x.failed ++ natHalf x.skipped ++ natHalf x.withdrawn ++
      (match x.firstFailure with
        | none => [0#8, 0#8, 0#8, 0#8, 0#8]
        | some ⟨i, r, none⟩ => [1#8, natByte i, r.byte, 0#8, 0#8]
        | some ⟨i, r, some k⟩ => [1#8, natByte i, r.byte, 1#8, natByte k]) ++
      (match x.launchEdge with
        | none => [0#8, 0#8, 0#8, 0#8]
        | some e => 1#8 :: (halfBytes e.number ++ [lineByte e.line]))) ∧
  armBytes none = [0#8, 0#8, 0#8, 0#8, 0#8] ∧
  (∀ a : ArmEntry, armBytes (some a) = [1#8, lineByte a.line, a.skip, a.countdown, a.mode.byte]) ∧
  (∀ (t : Fin 16) (k : Fin 4) (reg attempts : Half) (v mask expect : Val) (vs : List Val) (gap : Byte),
    let values := vs.flatMap valBytes
    (Record.single t reg v).bytes = [1#8, natByte t.val] ++ halfBytes reg ++ [0#8, 1#8, 0#8, 0#8] ++ valBytes v ∧
    (Record.run t reg vs).bytes =
      [2#8, natByte t.val] ++ halfBytes reg ++ [0#8, natByte vs.length, 0#8, 0#8] ++ values ∧
    (Record.scatter t reg .up vs).bytes =
      [3#8, natByte t.val] ++ halfBytes reg ++ [1#8, natByte vs.length, 0#8, 0#8] ++ values ∧
    (Record.scatter t reg .stay vs).bytes =
      [3#8, natByte t.val] ++ halfBytes reg ++ [0#8, natByte vs.length, 0#8, 0#8] ++ values ∧
    (Record.scatter t reg .down vs).bytes =
      [3#8, natByte t.val] ++ halfBytes reg ++ [0xFF#8, natByte vs.length, 0#8, 0#8] ++ values ∧
    (Record.poll t reg mask expect attempts gap).bytes =
      [4#8, natByte t.val] ++ halfBytes reg ++ [gap, 2#8] ++ halfBytes attempts ++ valBytes mask ++ valBytes expect ∧
    (Record.wait k reg).bytes = [5#8, natByte k.val] ++ halfBytes reg ++ [0#8, 0#8, 0#8, 0#8] ∧
    (Record.setpoint k v).bytes = [6#8, natByte k.val, 0#8, 0#8, 0#8, 1#8, 0#8, 0#8] ++ valBytes v) ∧
  ∀ (s : State) (h : ReqHead) (g : Fin 8), s.admits h →
    let e := s.group g
    exec (.groupQuery h (natByte g.val)) s =
      .next (s.replied h 0x15#8 .ok ([e.state.byte] ++ natHalf e.records.length ++ natHalf s.gtb.free ++
        [natByte e.pins] ++ e.launchBytes ++ natHalf (s.account g).pending ++ armBytes (s.armEntry g))) ∧
    ∀ first : Byte,
      (first.toNat < e.records.length ∨ (first = 0#8 ∧ e.records = []) →
        ∃ rs, rs <+: e.records.drop first.toNat ∧ rs.length ≤ 8 ∧ (rs.flatMap Record.bytes).length ≤ 596 ∧
          (rs.length = 8 ∨ rs = e.records.drop first.toNat ∨
            ∃ r, rs ++ [r] <+: e.records.drop first.toNat ∧ 596 < ((rs ++ [r]).flatMap Record.bytes).length) ∧
          exec (.groupRead h (natByte g.val) first) s =
            .next (s.replied h 0x16#8 .ok
              (natHalf e.records.length ++ [natByte rs.length] ++ rs.flatMap Record.bytes))) ∧
      (e.records.length ≤ first.toNat → (first ≠ 0#8 ∨ e.records ≠ []) →
        exec (.groupRead h (natByte g.val) first) s = .next (s.replied h 0x16#8 .badArg []))

/-- GROUP.ARM and GROUP.DISARM (R66, R67): the states each is taken in, and what each leaves in the group and in the arm
list. -/
def Obligations.ArmAndDisarm : Prop :=
  ∀ (s : State) (h : ReqHead) (g : Fin 8), s.admits h →
    (∀ (line : Line) (skip : Byte) (mode : ArmMode),
      ((s.group g).state ≠ .ready →
        exec (.groupArm h (natByte g.val) (lineByte line) skip mode.byte) s =
          .next (s.replied h 0x17#8 .wrongState [])) ∧
      ((s.group g).state = .ready →
        exec (.groupArm h (natByte g.val) (lineByte line) skip mode.byte) s =
          .next (((s.setGroup g { s.group g with state := .armed }).setArm
            (s.sau.arm ++ [⟨g, line, skip, skip, mode⟩])).replied h 0x17#8 .ok [natByte s.sau.arm.length]))) ∧
    ((∀ a ∈ s.sau.arm, a.group ≠ g) →
      exec (.groupDisarm h (natByte g.val)) s = .next (s.replied h 0x18#8 .wrongState [])) ∧
    ((∃ a ∈ s.sau.arm, a.group = g) →
      let rest := s.sau.arm.filter fun a => a.group != g
      ((s.group g).state = .armed →
        exec (.groupDisarm h (natByte g.val)) s =
          .next (((s.setGroup g { s.group g with state := .ready }).setArm rest).replied h 0x18#8 .ok [2#8])) ∧
      ((s.group g).state = .launching →
        exec (.groupDisarm h (natByte g.val)) s = .next ((s.setArm rest).replied h 0x18#8 .ok [4#8])))

/-- GROUP.APPLY launches a READY group with no edge, and its reply follows the appending (R74). The lanes then take what
they can, as they do after every step that ends a job or appends one, in every state: a lane with a job in flight is left alone, an IDLE lane takes its head jobs one by one through the dispatch
check and ends with an empty queue (R39, R40), and the targets, the records, the pool, the arm list, the store and the
array are as before. Which of several such lanes takes a job first is a free value (R53, R87; log entry 38). -/
def Obligations.GroupApplyLaunches : Prop :=
  (∀ (s : State) (h : ReqHead) (g : Fin 8), s.admits h →
    ((s.group g).state ≠ .ready → exec (.groupApply h (natByte g.val)) s = .next (s.replied h 0x19#8 .wrongState [])) ∧
    ((s.group g).state = .ready →
      exec (.groupApply h (natByte g.val)) s =
        .next ((((s.accepted h 0x19#8).launch none g).answer h.tag .ok
          (natHalf (s.group g).records.length)).settleLanes).arbitrated)) ∧
  ∀ s : State,
    let t := s.settleLanes
    s.takeHeads 0 = s ∧
    t = s.takeHeads (s.queuedCount fun _ => true) ∧
    (∀ n, ((∀ l, (s.lane l).flight ≠ none ∨ (s.lane l).queue = []) → s.takeHeads (n + 1) = s) ∧
      ((∃ l, (s.lane l).flight = none ∧ (s.lane l).queue ≠ []) →
        ∃ l j q, (s.lane l).flight = none ∧ (s.lane l).queue = j :: q ∧
          s.takeHeads (n + 1) = State.takeHeads n ((s.drawn.setLane l { s.lane l with queue := q }).dispatch l j))) ∧
    (∀ l, (t.lane l).settings = (s.lane l).settings ∧ ((s.lane l).flight ≠ none → (t.lane l).flight = (s.lane l).flight) ∧
      ((t.lane l).flight = none → (t.lane l).queue = [])) ∧
    (∀ g', (t.group g').records = (s.group g').records ∧ (t.group g').pins = (s.group g').pins) ∧
    t.gtb.free = s.gtb.free ∧ t.tgt = s.tgt ∧ t.sau.arm = s.sau.arm ∧ t.psc = s.psc ∧ t.suc = s.suc ∧ t.nv = s.nv ∧
    t.pins = s.pins ∧ t.hpt.replies.length + t.hpt.outstanding.length = s.hpt.replies.length + s.hpt.outstanding.length

/-- A launch, whole (R79 to R81): the group's fields, its account, and its records at the tails of their lanes in index
order, the lane of each by its form. Nothing else changes. -/
def Obligations.LaunchAppendsRecords : Prop :=
  ∀ (s : State) (edge : Option LaunchEdge) (g : Fin 8),
    let t := s.launch edge g
    t.group g =
      { s.group g with
        state := .launching, lastOutcome := .none, late := false, overrunSeen := false, done := 0, failed := 0
        skipped := 0, withdrawn := 0, firstFailure := none, launchEdge := edge } ∧
    t.account g = ⟨(s.group g).records.length, false, false⟩ ∧
    (∀ g', g' ≠ g → t.group g' = s.group g' ∧ t.account g' = s.account g') ∧
    (∀ l, t.lane l = { s.lane l with queue := (s.lane l).queue ++ s.launchJobs g l }) ∧
    (∀ (x : Fin 16) (reg : Half) (vs : List Val) (v w : Val) (st : Stride) (a : Half) (p : Byte),
      s.recordLane (.single x reg v) = (s.target x).cfg.lane ∧ s.recordLane (.run x reg vs) = (s.target x).cfg.lane ∧
      s.recordLane (.scatter x reg st vs) = (s.target x).cfg.lane ∧
      s.recordLane (.poll x reg v w a p) = (s.target x).cfg.lane) ∧
    (∀ l d, s.recordLane (.wait l d) = l) ∧
    (∀ n v, s.recordLane (.setpoint n v) =
      if (s.loop n).configured = true then (s.target (s.loop n).cfg.outTarget).cfg.lane else 0) ∧
    t.gtb.free = s.gtb.free ∧ t.sau = s.sau ∧ t.tgt = s.tgt ∧ t.tlu = s.tlu ∧ t.hpt = s.hpt ∧ t.psc = s.psc ∧
    t.suc = s.suc ∧ t.nv = s.nv ∧ t.pins = s.pins ∧ t.fresh = s.fresh ∧ t.pending = s.pending

/-- GROUP.ABORT (R92 to R94): the queued records of the group leave every lane, one in HOLD ends, one in a transaction
is marked; the withdrawn ones are counted, and the reply gives both numbers. An N.DONE joins in the step of the reply,
which the arbiter takes first (R206); that it is raised as under a reset where the account has `cut` set is the model's form
(log entry 41). The size of the second number is the model's (log entry 15), and that the account's
flags stay after a completion is its choice (log entry 19). -/
def Obligations.GroupAbortWithdraws : Prop :=
  ∀ (s : State) (g : Fin 8) (tag : Byte),
    let t := s.abort tag g
    let n := s.abortCount g
    let answered :=
      s.hpt.answer tag ([Status.ok.byte] ++ natHalf n ++ [natByte (t.flightCount (Job.ofGroup g))]) false
    (∀ h, s.admits h →
      ((s.group g).state ≠ .launching →
        exec (.groupAbort h (natByte g.val)) s = .next (s.replied h 0x1A#8 .wrongState [])) ∧
      ((s.group g).state = .launching →
        exec (.groupAbort h (natByte g.val)) s = .next ((((s.accepted h 0x1A#8).abort h.tag g).settleLanes).arbitrated))) ∧
    (∀ l,
      (t.lane l).settings = (s.lane l).settings ∧
      (t.lane l).queue = (s.lane l).queue.filter (fun j => !Job.ofGroup g j) ∧
      (t.lane l).flight = (s.lane l).flight.bind fun f =>
        if f.job.ofGroup g then (if f.part = .hold then none else some { f with marked := true }) else some f) ∧
    (∀ g', g' ≠ g → t.group g' = s.group g' ∧ t.account g' = s.account g') ∧
    t.sau.arm = s.sau.arm ∧ t.tgt = s.tgt ∧ t.tlu = s.tlu ∧
    (n ≤ (s.account g).pending →
      t.account g = ⟨(s.account g).pending - n, true, (s.account g).cut⟩ ∧
      (t.group g).withdrawn = (s.group g).withdrawn + n ∧ (t.group g).records = (s.group g).records ∧
      (n < (s.account g).pending → (t.group g).state = (s.group g).state ∧ t.hpt = answered) ∧
      (n = (s.account g).pending → n ≠ 0 →
        ((s.hpt.outstanding.any (fun o => o.tag == tag)) = true →
          t.hpt = (State.notify { s with hpt := answered } 0x01#8 (natByte g.val :: (t.group g).launchBytes)
            (s.account g).cut).hpt) ∧
        (t.group g).lastOutcome = .aborted ∧
        (t.group g).state = if (s.armEntry g).isSome then .armed else .ready))

/-- A record's end (R84, R85): one count rises, `pending` falls, the first failure is kept, and the end that brings
`pending` to 0 completes the group. -/
def Obligations.RecordEndCounts : Prop :=
  ∀ (s : State) (g : Fin 8) (index n : Nat) (e : RecordEnd), (s.account g).pending = n + 1 →
    let x := s.group g
    let t := (s.setGroup g (x.counted index e)).setAccount g { s.account g with pending := n }
    (n ≠ 0 → s.recordEnd g index e = t) ∧
    (n = 0 → s.recordEnd g index e = t.complete g) ∧
    (e = .done → x.counted index e = { x with done := x.done + 1 }) ∧
    (e = .skipped → x.counted index e = { x with skipped := x.skipped + 1 }) ∧
    (e = .withdrawn → x.counted index e = { x with withdrawn := x.withdrawn + 1 }) ∧
    ∀ r item, e = .failed r item →
      (x.firstFailure = none →
        x.counted index e = { x with failed := x.failed + 1, firstFailure := some ⟨index, r, item⟩ }) ∧
      (x.firstFailure ≠ none → x.counted index e = { x with failed := x.failed + 1 })

/-- The outcome of a launch, by the first line of the table that applies (R88); and a completion (R89, R90): outcome
and state, the window sets without the group, and N.DONE at the tail of the notice queue, or the notice-lost flag.
Whether a free transmitter takes it at once, but under a partial reset (R206), and whether it joins ahead of notices of other
blocks, are free values (log entries 5 and 38); that the partial reset holds back an N.DONE with outcome ABORTED like one with
CUT is the model's choice (log entry 41). That the account's flags stay after a completion is the model's choice (log entry 19). -/
def Obligations.CompletionMovesGroup : Prop :=
  (∀ (a : Account) (x : GroupEntry),
    (a.abortTaken = true → launchOutcome a x = .aborted) ∧
    (a.abortTaken = false → a.cut = true → launchOutcome a x = .cut) ∧
    (a.abortTaken = false → a.cut = false → x.done = x.records.length → launchOutcome a x = .applied) ∧
    (a.abortTaken = false → a.cut = false → x.done ≠ x.records.length → launchOutcome a x = .torn)) ∧
  ∀ (s : State) (g : Fin 8),
    let t := s.complete g
    let y := { s.group g with
      lastOutcome := launchOutcome (s.account g) (s.group g)
      state := if (∃ a ∈ s.sau.arm, a.group = g) then .armed else .ready }
    t.group g = y ∧ (∀ g', g' ≠ g → t.group g' = s.group g') ∧ t.lsq = s.lsq ∧ t.gtb.free = s.gtb.free ∧
    t.sau.arm = s.sau.arm ∧ t.lanes = s.lanes ∧ t.tgt = s.tgt ∧ t.tlu = s.tlu ∧
    (∀ l, t.line l =
      { s.line l with opened := (s.line l).opened.map fun w => { w with set := w.set.filter fun g' => g' != g } }) ∧
    t.hpt = (s.notify 0x01#8 (natByte g.val :: y.launchBytes) (s.account g).cut).hpt ∧
    ∀ (h : Hpt) (n : Notice),
      (h.notices.length < 16 → h.join n 0 = { h with notices := h.notices ++ [n] }) ∧
      (16 ≤ h.notices.length → h.join n 0 = { h with lost := true })

/-- Every step keeps the pool law: free and held records make 256 (R1); and every step keeps that an EMPTY or LOADING
group holds no records (R4). -/
def Obligations.PoolLawKept : Prop :=
  ∀ s t : State, step s = .next t → (s.poolLaw → t.poolLaw) ∧ (s.emptyLaw → t.emptyLaw)

/-- Every step keeps the arm-list law (R65); and with it that the launch accounts are true: the pending count of a group
is the number of its records queued and in flight (R78). Every step keeps the jobs law: `jobs out` of a loop is the number
of its jobs queued and in flight, two at most (R111), and they are those of its cycle (R112, R116). -/
def Obligations.ArmAndPendingLawsKept : Prop :=
  ∀ s t : State, step s = .next t →
    (s.armLaw → t.armLaw ∧ (s.pendingLaw → t.pendingLaw)) ∧ (s.jobsLaw → t.jobsLaw)

/-! ## Targets and lanes -/

/-- TARGET.SET, TARGET.CLEAR and TARGET.QUERY (R30 to R34): the checks in their order, what `in use` means, which
items are in range, which address and timeout fit a lane's kind, and the entry that a SET or a CLEAR leaves. The layout of the fault reason in the reply is the
model's (log entry 15). -/
def Obligations.TargetRequests : Prop :=
  (∀ (s : State) (h : ReqHead) (t : Fin 16), s.admits h →
    (∀ r : RawTarget,
      (s.inUse t = true →
        exec (.targetSet h (natByte t.val) r) s = .next (s.replied h 0x20#8 .targetInUse [])) ∧
      (s.inUse t = false →
        (targetCfgOf r = none →
          exec (.targetSet h (natByte t.val) r) s = .next (s.replied h 0x20#8 .badArg [])) ∧
        ∀ c, targetCfgOf r = some c →
          ((c.fitsKind (s.lane c.lane).settings = false ∨
            (c.enabled = true ∧ ∃ u, u ≠ t ∧ (s.target u).cfg.enabled = true ∧ (s.target u).cfg.lane = c.lane ∧
              (s.target u).cfg.address = c.address)) →
            exec (.targetSet h (natByte t.val) r) s = .next (s.replied h 0x20#8 .badArg [])) ∧
          (c.fitsKind (s.lane c.lane).settings = true →
            (c.enabled = false ∨ ∀ u, u ≠ t → (s.target u).cfg.enabled = true → (s.target u).cfg.lane = c.lane →
              (s.target u).cfg.address ≠ c.address) →
            exec (.targetSet h (natByte t.val) r) s = .next ((s.setTarget t ⟨c, none⟩).replied h 0x20#8 .ok [])))) ∧
    exec (.targetClear h (natByte t.val)) s =
      .next ((s.setTarget t { s.target t with fault := none }).replied h 0x22#8 .ok []) ∧
    exec (.targetQuery h (natByte t.val)) s =
      .next (s.replied h 0x21#8 .ok ((s.target t).cfg.bytes ++ [flagByte (s.target t).fault.isSome] ++
        optional 1 ((s.target t).fault.map fun r => [r.reason.byte]) ++ [flagByte (s.inUse t)])) ∧
    (s.inUse t = true ↔
      (∃ g, ((s.group g).state = .armed ∨ (s.group g).state = .launching) ∧
        ∃ r ∈ (s.group g).records, r.target = some t) ∨
      (∃ n, (s.loop n).state.running = true ∧
        ((s.loop n).cfg.measTarget = t ∨ (s.loop n).cfg.outTarget = t ∨
          ∃ f, (s.loop n).cfg.follower = some f ∧ f.target = t)))) ∧
  (∀ r : RawTarget, (targetCfgOf r).isSome = true ↔
    r.enabled.toNat ≤ 1 ∧ r.lane.toNat ≤ 3 ∧
    (r.address.toNat ≤ 1 ∨ (0x08 ≤ r.address.toNat ∧ r.address.toNat ≤ 0x77)) ∧
    (r.regWidth = 1#8 ∨ r.regWidth = 2#8) ∧ (r.dataWidth = 1#8 ∨ r.dataWidth = 2#8 ∨ r.dataWidth = 4#8) ∧
    r.autoInc.toNat ≤ 1 ∧ r.verify.toNat ≤ 1 ∧ r.retries.toNat ≤ 3) ∧
  (∀ (c : TargetCfg) (k : LaneSettings), c.fitsKind k = true ↔
    (k.isI2c = true ∧ c.address ≠ .selectA ∧ c.address ≠ .selectB ∧ c.timeout ≠ none) ∨
    (k.isI2c = false ∧ (c.address = .selectA ∨ c.address = .selectB) ∧ c.timeout = none)) ∧
  (∀ c : TargetCfg, c.inRange = true → targetCfgOf (rawTargetAt c.bytes 0) = some c)

/-- TARGET.READ (R54): its checks, and the read job behind what the lane holds, the request staying outstanding;
LANE.SET, with the kinds, speeds and modes it takes, and LANE.QUERY (R36, R37); and the levels of the five lane pins while no
transaction is in flight, by kind and mode (R38). The attempt and progress numbers of a WAIT and a POLL in the reply are the model's
(log entry 16). -/
def Obligations.ReadAndLaneRequests : Prop :=
  (∀ (s : State) (h : ReqHead) (t : Fin 16) (reg : Half), s.admits h →
    let e := s.target t
    (e.cfg.enabled = false ∨ e.cfg.regWidth.last < reg.toNat →
      exec (.targetRead h (natByte t.val) reg) s = .next (s.replied h 0x23#8 .badArg [])) ∧
    (e.cfg.enabled = true → reg.toNat ≤ e.cfg.regWidth.last →
      (e.fault ≠ none →
        exec (.targetRead h (natByte t.val) reg) s = .next (s.replied h 0x23#8 .targetFaulted [])) ∧
      (e.fault = none →
        exec (.targetRead h (natByte t.val) reg) s =
          .next ((((s.accepted h 0x23#8).appendJob e.cfg.lane (.read h.tag t reg)).settleLanes).arbitrated)))) ∧
  (∀ (r : RawLane), (laneSettingsOf r).isSome = true ↔
    (r.kind = 0#8 ∧ r.modePresent = 0#8 ∧ (r.speed = 100#16 ∨ r.speed = 400#16 ∨ r.speed = 1000#16)) ∨
    (r.kind = 1#8 ∧ r.modePresent = 1#8 ∧ (r.mode = 0#8 ∨ r.mode = 3#8) ∧
      (r.speed = 1000#16 ∨ r.speed = 5000#16 ∨ r.speed = 10000#16 ∨ r.speed = 25000#16))) ∧
  (∀ (r : RawLane) (c : LaneSettings), laneSettingsOf r = some c →
    c.bytes = [r.kind] ++ halfBytes r.speed ++ (if r.kind = 0#8 then [0#8, 0#8] else [1#8, r.mode])) ∧
  (∀ c : LaneSettings, laneSettingsOf (rawLaneAt c.bytes 0) = some c) ∧
  (∀ c : LaneSettings,
    (c.isI2c = true → c.idlePins = Vector.replicate 5 .released) ∧
    (∀ x, c = .spi x .mode0 → c.idlePins.toList = [.low, .low, .input, .high, .high]) ∧
    ∀ x, c = .spi x .mode3 → c.idlePins.toList = [.high, .low, .input, .high, .high]) ∧
  ∀ (s : State) (h : ReqHead) (l : Fin 4), s.admits h →
    let x := s.lane l
    (∀ (r : RawLane) (c : LaneSettings), laneSettingsOf r = some c →
      (x.flight ≠ none ∨ x.queue ≠ [] →
        exec (.laneSet h (natByte l.val) r) s = .next (s.replied h 0x24#8 .laneBusy [])) ∧
      (x.flight = none → x.queue = [] →
        (c.isI2c ≠ x.settings.isI2c → (∃ t, (s.target t).cfg.enabled = true ∧ (s.target t).cfg.lane = l) →
          exec (.laneSet h (natByte l.val) r) s = .next (s.replied h 0x24#8 .targetInUse [])) ∧
        ((c.isI2c = x.settings.isI2c ∨ ∀ t, (s.target t).cfg.enabled = true → (s.target t).cfg.lane ≠ l) →
          exec (.laneSet h (natByte l.val) r) s =
            .next ((s.setLane l { x with settings := c }).replied h 0x24#8 .ok [])))) ∧
    exec (.laneQuery h (natByte l.val)) s =
      .next (s.replied h 0x25#8 .ok (x.settings.bytes ++ [x.state.byte] ++ natHalf x.queue.length ++
        optional 6 (x.flight.map fun f =>
          [f.job.kindByte] ++ f.job.ownerBytes ++ [natByte f.attempt] ++ natHalf f.progress)))

/-- The dispatch check at a lane head (R41 to R43, R55): for each kind of job, turned away, skipped, dropped, or in
flight with its first transaction, the entry held as it stood. That the whole entry is held is the model's choice (log
entry 12), and so is the item index of a SCATTER turned away, one of its items (log entry 34). -/
def Obligations.DispatchCheck : Prop :=
  ∀ (s : State) (l : Fin 4),
    (∀ (j : Job) (t : Fin 16), j.target = some t → s.isStale j = false →
      let c := (s.target t).cfg
      let fits : Prop := c.enabled = true ∧ c.lane = l ∧
        match j with
        | .record _ _ r => r.fits c = true
        | .loop _ k _ reg v =>
          reg.toNat ≤ c.regWidth.last ∧ (k = .measure ∨ v.toNat < 2 ^ (8 * c.dataWidth.bytes))
        | .read _ _ reg => reg.toNat ≤ c.regWidth.last
      (¬ fits →
        (∀ g i r, j = .record g i r → (∀ t' reg st vs, r ≠ .scatter t' reg st vs) →
          s.dispatch l j = s.recordEnd g i (.failed .badTarget none)) ∧
        (∀ g i t' reg st vs, j = .record g i (.scatter t' reg st vs) →
          ∃ item : Nat, (vs ≠ [] → item < vs.length) ∧
            s.dispatch l j = (s.recordEnd g i (.failed .badTarget (some item))).drawn) ∧
        (∀ n k t' reg v, j = .loop n k t' reg v → s.dispatch l j = s.loopJobEnd n k t' reg (.failed .badTarget)) ∧
        (∀ tag t' reg, j = .read tag t' reg → s.dispatch l j = s.answer tag .badArg)) ∧
      (fits → (s.target t).fault ≠ none →
        (∀ g i r, j = .record g i r → s.dispatch l j = s.recordEnd g i .skipped) ∧
        (∀ n k t' reg v, j = .loop n k t' reg v → s.dispatch l j = s.loopJobEnd n k t' reg .skipped) ∧
        (∀ tag t' reg, j = .read tag t' reg → s.dispatch l j = s.answer tag .targetFaulted)) ∧
      (fits → (s.target t).fault = none →
        (j.reads = true →
          s.dispatch l j = s.setFlight l (some
            ⟨j, c, .read, 1, 0, 0, false, readWire (s.lane l).settings c (j.register 0) 1⟩)) ∧
        (j.reads = false →
          s.dispatch l j = s.setFlight l (some
            ⟨j, c, .write, 1, 0, 0, false, writeWire (s.lane l).settings c (j.register 0) (j.written 0)⟩)))) ∧
    (∀ n k t reg v, k ≠ .measure → (s.loop n).stale = true →
      s.dispatch l (.loop n k t reg v) = s.loopJobEnd n k t reg .dropped) ∧
    (∀ g i lane d, ∃ f : Flight, f.job = .record g i (.wait lane d) ∧ f.part = .hold ∧ f.wire = [] ∧
      s.dispatch l (.record g i (.wait lane d)) = s.setFlight l (some f)) ∧
    (∀ g i n v, s.dispatch l (.record g i (.setpoint n v)) = (s.applySetpoint n v).recordEnd g i .done)

/-- What a transaction that ends ACK leads to (R46, R47, R53): the verify read, a mismatch, the report of a job whose
one transaction has succeeded, or the value read; all of the transaction has gone over the bus. What a transaction is on
the bus: start, address and direction, the register and the data bytes, most significant first, the repeated start of a read,
every data byte read acknowledged but the last, stop (R44); or the select, the command byte, and the same bytes (R45). That a
TARGET.READ answers with 4 bytes is the model's (log entry 15), and that the verify read is made from the whole entry
held at the dispatch check is its choice (log entry 12). With loop jobs queued on the lane, in every state, the hand-on of a
group write comes before the lane takes its next heads or after them, up to the next record of the group, by a free value
(R86, R124; log entry 39). -/
def Obligations.TransactionAcknowledged : Prop :=
  let bigEndian (n v : Nat) : List Byte := (List.range n).reverse.map fun i => natByte (v / 256 ^ i)
  (∀ (w : DataWidth) (v : Val), w.busBytes v = bigEndian w.bytes v.toNat) ∧
  (∀ data : List Byte, data.length ≤ 4 → (busValue data).toNat = data.foldl (fun n b => 256 * n + b.toNat) 0) ∧
  (∀ (c : TargetCfg) (reg : Half) (vs : List Val) (n : Nat),
    let regs : List BusSym := (bigEndian c.regWidth.bytes reg.toNat).map .send
    let data : List BusSym := (vs.flatMap fun v => bigEndian c.dataWidth.bytes v.toNat).map .send
    let count : Nat := n * c.dataWidth.bytes
    (∀ (x : I2cSpeed) (a : Byte), c.address = .i2c a →
      let asked : List BusSym := .start :: .send (natByte (2 * a.toNat)) :: regs
      let turned : List BusSym := [.repeatedStart, .send (natByte (2 * a.toNat + 1))]
      let taken : List BusSym := List.replicate (count - 1) .takeAck
      let stopped : List BusSym := [.takeNak, .stop]
      writeWire (.i2c x) c reg vs = asked ++ data ++ [.stop] ∧
      (0 < count → readWire (.i2c x) c reg n = asked ++ turned ++ taken ++ stopped)) ∧
    ∀ (x : SpiSpeed) (m : SpiMode),
      let select : Bool := c.address == .selectB
      let asked (command : Byte) : List BusSym := .assertSelect select :: .send command :: regs
      let released : List BusSym := [.releaseSelect select]
      let taken : List BusSym := List.replicate count .take
      writeWire (.spi x m) c reg vs = asked 0x2A#8 ++ data ++ released ∧
      readWire (.spi x m) c reg n = asked 0x2B#8 ++ taken ++ released) ∧
  (∀ (s : State) (l : Fin 4) (f : Flight) (data : List Byte), s.live = true → (s.lane l).flight = some f →
    let sent := s.setLane l { s.lane l with bus := f.wire }
    let idle := sent.setFlight l none
    (f.part = .write → f.cfg.verify = true →
      exec (.transactionEnd l (.ack [])) s =
        .next (((sent.setFlight l (some { f with
          part := .verify
          wire := readWire (s.lane l).settings f.cfg (f.job.register f.item) (f.job.written f.item).length
          })).settleLanes).arbitrated)) ∧
    (f.part = .write → f.cfg.verify = false →
      exec (.transactionEnd l (.ack [])) s = .next (((sent.itemDone l f).settleLanes).arbitrated)) ∧
    (f.part = .verify → data.length = (f.job.written f.item).length * f.cfg.dataWidth.bytes →
      (data = (f.job.written f.item).flatMap f.cfg.dataWidth.busBytes →
        exec (.transactionEnd l (.ack data)) s = .next (((sent.itemDone l f).settleLanes).arbitrated)) ∧
      (data ≠ (f.job.written f.item).flatMap f.cfg.dataWidth.busBytes →
        exec (.transactionEnd l (.ack data)) s = .next (((sent.attemptFailed l f .mismatch).settleLanes).arbitrated))) ∧
    (f.part = .read → data.length = f.cfg.dataWidth.bytes →
      (∀ n k t reg v, f.job = .loop n k t reg v →
        exec (.transactionEnd l (.ack data)) s =
          .next (((idle.loopJobEnd n k t reg (.success (busValue data))).settleLanes).arbitrated)) ∧
      (∀ tag t reg, f.job = .read tag t reg →
        exec (.transactionEnd l (.ack data)) s =
          .next (((idle.answer tag .ok (valBytes (busValue data))).settleLanes).arbitrated))) ∧
    (∀ g i t reg v, f.job = .record g i (.single t reg v) →
      sent.itemDone l f = (idle.recordEnd g i .done).handOver l g t [(reg, v)]) ∧
    (∀ g i t reg vs, f.job = .record g i (.run t reg vs) →
      sent.itemDone l f = (idle.recordEnd g i .done).handOver l g t (vs.mapIdx fun k v => (reg + BitVec.ofNat 16 k, v))) ∧
    (∀ n k t reg v, f.job = .loop n k t reg v → sent.itemDone l f = idle.loopJobEnd n k t reg (.success v))) ∧
  ∀ (s : State) (l : Fin 4) (g : Fin 8),
    (∀ (t : Fin 16) (writes : List (Half × Val)),
      ((∀ j ∈ (s.lane l).queue, j.ofTlu = false) → s.handOver l g t writes = s.handOn t writes) ∧
      ((∃ j ∈ (s.lane l).queue, j.ofTlu = true) →
        s.handOver l g t writes =
          (if Config.handOnLate s.fresh = true then s.drawn.takePast g l (s.lane l).queue.length else s.drawn).handOn t
            writes)) ∧
    s.takePast g l 0 = s ∧
    ∀ n,
      (((s.lane l).flight ≠ none ∨ (s.lane l).queue = [] ∨
          ∃ i r q, (s.lane l).queue = .record g i r :: q) → s.takePast g l (n + 1) = s) ∧
      ∀ j q, (s.lane l).flight = none → (s.lane l).queue = j :: q → j.ofGroup g = false →
        s.takePast g l (n + 1) = State.takePast g l n ((s.setLane l { s.lane l with queue := q }).dispatch l j)

/-- What a failed attempt leads to (R44, R46, R48, R49, R53): the stop condition, then the attempt again in full, or the
target's fault with its notice, before the job's report. The lane the notice names is the model's choice (log entry 25);
so are the bytes of a repeated attempt, taken from the whole entry held at the dispatch check (log entry 12), and where
in the transaction a clock hold falls (log entry 37), and where the notice joins among those of the same step (log entry
38). -/
def Obligations.TransactionFails : Prop :=
  ∀ (s : State) (l : Fin 4) (f : Flight), s.live = true → (s.lane l).flight = some f → f.part ≠ .hold →
    ((s.lane l).settings.isI2c = true →
      (∀ front b back, f.wire = front ++ .send b :: back →
        exec (.transactionEnd l (.nak (front.countP BusSym.isSend))) s =
          .next (((((s.setLane l { s.lane l with bus := front ++ [.send b, .stop] }).attemptFailed l f
            .nak).settleLanes)).arbitrated)) ∧
      ∃ front, front <+: f.wire ∧ (2 ≤ f.wire.length → front ≠ [] ∧ front ≠ f.wire) ∧
        exec (.clockHoldTimeout l) s =
          .next ((((s.setLane l { s.lane l with bus := front ++ [.release, .stop] }).drawn.attemptFailed l f
            .timeout).settleLanes).arbitrated)) ∧
    ∀ r : FaultReason,
      (f.attempt ≤ f.cfg.retries.val → f.job.reads = false →
        s.attemptFailed l f r = s.setFlight l (some { f with
          attempt := f.attempt + 1, part := .write
          wire := writeWire (s.lane l).settings f.cfg (f.job.register f.item) (f.job.written f.item) })) ∧
      (f.attempt ≤ f.cfg.retries.val → f.job.reads = true →
        s.attemptFailed l f r = s.setFlight l (some { f with
          attempt := f.attempt + 1, part := .read
          wire := readWire (s.lane l).settings f.cfg (f.job.register f.item) 1 })) ∧
      (f.cfg.retries.val < f.attempt →
        (∀ t, f.job.target = some t →
          let idle := s.setFlight l none
          ((s.target t).fault = none →
            s.attemptFailed l f r =
              ((idle.setTarget t { s.target t with fault := some r }).notify 0x03#8
                ([natByte t.val, natByte (s.target t).cfg.lane.val, r.reason.byte, f.job.kindByte] ++
                  f.job.ownerBytes ++ optional 1 (f.scatterItem.map fun i => [natByte i]))).jobFailed l f r) ∧
          ((s.target t).fault ≠ none → s.attemptFailed l f r = idle.jobFailed l f r)) ∧
        (∀ t : State,
          (∀ g i x reg v, f.job = .record g i (.single x reg v) →
            t.jobFailed l f r = t.recordEnd g i (.failed r.reason none)) ∧
          (∀ g i x reg vs, f.job = .record g i (.run x reg vs) →
            t.jobFailed l f r = t.recordEnd g i (.failed r.reason none)) ∧
          (∀ g i x reg m e a p, f.job = .record g i (.poll x reg m e a p) →
            t.jobFailed l f r = t.recordEnd g i (.failed r.reason none)) ∧
          (∀ g i x reg st vs, f.job = .record g i (.scatter x reg st vs) →
            t.jobFailed l f r = (t.recordEnd g i (.failed r.reason (some f.item))).handOver l g x
              ((vs.take f.item).mapIdx fun k v => (st.register reg k, v))) ∧
          (∀ n k x reg v, f.job = .loop n k x reg v → t.jobFailed l f r = t.loopJobEnd n k x reg (.failed r.reason)) ∧
          (∀ tag x reg, f.job = .read tag x reg →
            (r = .nak → t.jobFailed l f r = t.answer tag .nak) ∧
            (r = .timeout → t.jobFailed l f r = t.answer tag .timeout))))

/-- SCATTER item by item, POLL read by read with its gap, WAIT (R50 to R52), and what an abort's mark changes at the
end of a transaction (R93). That the attempt number stays during a gap, and what counts as a read made, are the model's
choices (log entry 16). -/
def Obligations.ScatterPollAndWait : Prop :=
  ∀ (s : State) (l : Fin 4) (f : Flight), s.live = true → (s.lane l).flight = some f →
    let idle := s.setFlight l none
    (∀ g i t reg st vs, f.job = .record g i (.scatter t reg st vs) →
      (f.item + 1 < vs.length → f.marked = false →
        s.itemDone l f = s.setFlight l (some { f with
          item := f.item + 1, attempt := 1, part := .write
          wire := writeWire (s.lane l).settings f.cfg (st.register reg (f.item + 1)) ((vs.drop (f.item + 1)).take 1) })) ∧
      (f.item + 1 < vs.length → f.marked = true →
        s.itemDone l f = (idle.recordEnd g i .withdrawn).handOver l g t
          ((vs.take (f.item + 1)).mapIdx fun k v => (st.register reg k, v))) ∧
      (vs.length = f.item + 1 →
        s.itemDone l f = (idle.recordEnd g i .done).handOver l g t (vs.mapIdx fun k v => (st.register reg k, v)))) ∧
    (∀ g i t reg mask expect attempts gap, f.job = .record g i (.poll t reg mask expect attempts gap) →
      (∀ data, f.part = .read → data.length = f.cfg.dataWidth.bytes →
        let v := busValue data
        let sent := s.setLane l { s.lane l with bus := f.wire }
        let idle := sent.setFlight l none
        let answer (x : State) := exec (.transactionEnd l (.ack data)) s = .next (x.settleLanes).arbitrated
        (v &&& mask = expect → answer (idle.recordEnd g i .done)) ∧
        (v &&& mask ≠ expect → f.marked = true → answer (idle.recordEnd g i .withdrawn)) ∧
        (v &&& mask ≠ expect → f.marked = false → f.reads + 1 < attempts.toNat →
          answer (sent.setFlight l (some { f with part := .hold, reads := f.reads + 1, wire := [] }))) ∧
        (v &&& mask ≠ expect → f.marked = false → attempts.toNat ≤ f.reads + 1 →
          answer (idle.recordEnd g i (.failed .pollExpired none)))) ∧
      (f.part = .hold →
        exec (.pollGapExpiry l) s = .next (s.setFlight l (some { f with
          part := .read, attempt := 1, wire := readWire (s.lane l).settings f.cfg reg 1 })).arbitrated)) ∧
    (∀ g i x d, f.job = .record g i (.wait x d) →
      exec (.waitExpiry l) s = .next (((idle.recordEnd g i .done).settleLanes).arbitrated))

/-- Every step keeps that an IDLE lane has an empty queue (R40). -/
def Obligations.IdleLaneHasEmptyQueue : Prop := ∀ s t : State, s.laneLaw → step s = .next t → t.laneLaw

/-- PART.RESET LANES (R57, R99, R126): every lane idle and empty with its settings kept, the targets and the arm list
kept, every loop's jobs cancelled, and every launch ended CUT, or ABORTED after an abort; the transaction in flight ends cut,
the read jobs are answered ABORTED, and each launch that ends queues its N.DONE (R55, R57, R99). All of that comes before
the reply, and a transmitter that is free all the while takes no CUT notice ahead of it (R206; log entry 5), nor an ABORTED
one (the model's choice, log entry 41). A running loop
keeps what it holds but for its cycle (R126), and adopts what a SCATTER that is cut had written to its output register (R57,
R86, R122). The order in which the lanes report is free but for each lane's own (R53, R57; log entry 38), and so is how far a cut transaction had
come (log entry 37). -/
def Obligations.LanesResetCutsLaunches : Prop :=
  ∀ s : State,
    let t := s.cutLanes
    let jobs (l : Fin 4) := (match (s.lane l).flight with | none => [] | some f => [f.job]) ++ (s.lane l).queue
    (∀ h, s.admits h →
      exec (.partResetLanes h) s = .next (((s.accepted h 0x72#8).cutLanes.answer h.tag .ok []).arbitrated)) ∧
    (∀ l, t.lane l = ⟨(s.lane l).settings, [], none, (t.lane l).bus⟩ ∧
      ((s.lane l).flight = none → (t.lane l).bus = (s.lane l).bus) ∧
      ∀ f, (s.lane l).flight = some f →
        (f.part = .hold → (t.lane l).bus = (s.lane l).bus) ∧
        (f.part ≠ .hold → ∃ front, front <+: f.wire ∧ (2 ≤ f.wire.length → front ≠ [] ∧ front ≠ f.wire) ∧
          (t.lane l).bus = front ++ (if (s.lane l).settings.isI2c = true then [.release, .stop]
            else [.releaseSelect (decide (f.cfg.address = .selectB))]))) ∧
    (s.pendingLaw → (∀ g, (s.account g).pending ≠ 0 → (s.group g).state = .launching) → s.raised = 0 →
      ∃ reports : List (Fin 4 × Job), (∀ l, (reports.filter (·.1 == l)).map (·.2) = jobs l) ∧
        t.hpt = cutReports (fun g => ⟨0x01#8, natByte g.val :: (t.group g).launchBytes⟩) s.hpt (reports.map (·.2))) ∧
    t.tgt = s.tgt ∧ t.sau.arm = s.sau.arm ∧ t.psc = s.psc ∧ t.suc = s.suc ∧ t.nv = s.nv ∧
    (∀ n,
      let x := s.loop n
      let idled (y : LoopEntry) : LoopEntry := { y with cycle := .none, stale := false, jobsOut := 0 }
      let written (f : Flight) : List (Half × Val) := match f.job with
        | .record _ _ (.scatter t reg st vs) =>
          if t = x.cfg.outTarget then (vs.take f.item).mapIdx fun k v => (st.register reg k, v) else []
        | _ => []
      let adopted : List Val := (upTo 4).filterMap fun l =>
        (((s.lane l).flight.toList.flatMap written).filter fun w => w.1 == x.cfg.outReg).getLast?.map (·.2)
      (x.state.running = false → t.loop n = { x with jobsOut := 0 }) ∧
      (x.state.running = true →
        (adopted = [] → t.loop n = idled x) ∧
        (adopted ≠ [] → ∃ v ∈ adopted, t.loop n = idled { x with output := v, state := .tracking }))) ∧
    (∀ g, (t.group g).records = (s.group g).records ∧ (t.group g).pins = (s.group g).pins) ∧
    (s.pendingLaw → ∀ g, (t.account g).pending = 0 ∧
      ((s.account g).pending = 0 → t.group g = s.group g) ∧
      ((s.account g).pending ≠ 0 → (s.group g).state = .launching →
        (t.group g).state = (if (s.armEntry g).isSome then .armed else .ready) ∧
        (t.group g).lastOutcome = (if (s.account g).abortTaken then .aborted else .cut) ∧
        (t.group g).withdrawn = (s.group g).withdrawn + (s.account g).pending))

/-! ## Sync lines -/

/-- SYNC.SET, SYNC.PULSE and SYNC.QUERY (R62 to R64). A pulse makes a whole edge event, its
reply joins, and the lanes then take what was appended (R206): what the lanes' taking raises joins behind the reply and
behind every notice queued before it, an N.OVERRUN of the pulse's walk among them (R195, R206). A query changes nothing of
the part (the time remaining it reports is a free value, log entry 11). The layout of the SYNC.QUERY result and the size of the
group count of a SYNC.PULSE are the model's (log entry 15). -/
def Obligations.SyncRequests : Prop :=
  ∀ (s : State) (h : ReqHead) (line : Line), s.admits h →
    (∀ (edge : EdgeSel) (window : Half), window.toNat ≤ 6000 →
      exec (.syncSet h (lineByte line) edge.byte window) s =
        .next ((s.setLine line { s.line line with edge := edge, window := window }).replied h 0x30#8 .ok [])) ∧
    (let t := (s.accepted h 0x31#8).edgeMade line
     let result := halfBytes (t.line line).counter ++ [natByte (s.dueAt line).length]
     let u := ({ t.answer h.tag .ok result with raised := 0 } : State).settleLanes
     exec (.syncPulse h (lineByte line)) s = .next u.arbitrated ∧
     (t.line line).counter = (s.line line).counter + 1#16 ∧
     (∃ later, u.hpt.replies = s.hpt.replies ++ ⟨h.tag, 0xB1#8, Status.ok.byte :: result, false⟩ :: later) ∧
     (∃ later, u.hpt.notices = t.hpt.notices ++ later) ∧ u.hpt.sending = t.hpt.sending) ∧
    (∃ left : Nat, (∀ w, (s.line line).opened = some w → left ≤ w.duration.toNat) ∧
      let x := s.line line
      let entries := s.sau.arm.filter fun e => e.line == line
      let set := match x.opened with | none => [] | some w => w.set
      exec (.syncQuery h (lineByte line)) s =
        .next { s.replied h 0x32#8 .ok ([x.edge.byte] ++ halfBytes x.window ++ halfBytes x.counter ++
            optional 2 (x.opened.map fun _ => natHalf left) ++ [natByte set.length] ++ set.map (fun g => natByte g.val) ++
            [natByte entries.length] ++
            entries.flatMap fun e => [natByte e.group.val, e.skip, e.countdown, e.mode.byte]) with
          fresh := s.fresh + 1 })

/-- An accepted edge in its order (R61): counter, the old window closed with `late` on the groups still in it, the
walk, the launches, the new window, and the lanes; and a window's expiry (R72, R73). The loops take the edge before,
between or after the launches, by a free value (R61, R82; log entry 6). That an expiry with no window open changes nothing
is the model's choice (log entry 3). -/
def Obligations.EdgeTakenInOrder : Prop :=
  ∀ (s : State) (line : Line),
    (let counted := s.setLine line { s.line line with counter := (s.line line).counter + 1#16 }
     let closed := counted.closeWindow line
     let due := (closed.walk line closed.sau.arm).due
     let opened (t : State) : State :=
       if (t.line line).window = 0#16 then t
       else t.setLine line { t.line line with opened := some ⟨(t.line line).window, due⟩ }
     (∃ front back, due = front ++ back ∧
       s.edgeMade line =
         (opened ((((closed.edgeWalked line).launchAll line front).loopsEdge line).launchAll line back)).drawn) ∧
     s.edge line = (s.edgeMade line).settleLanes) ∧
    ((s.line line).opened = none → s.closeWindow line = s) ∧
    (∀ w, (s.line line).opened = some w →
      let t := s.closeWindow line
      t.line line = { s.line line with opened := none } ∧ (∀ l, l ≠ line → t.line l = s.line l) ∧
      t.sau.arm = s.sau.arm ∧ t.lsq = s.lsq ∧ t.lanes = s.lanes ∧ t.hpt = s.hpt ∧ t.gtb.free = s.gtb.free ∧
      ∀ g, t.group g = { s.group g with late := (s.group g).late || w.set.contains g }) ∧
    (s.live = true → exec (.windowExpiry line) s = .next (s.closeWindow line).arbitrated)

/-- The walk at an edge (R69 to R71): each entry's move, the groups found due in list order, and the lost occurrences
with their flag and their notice. The layout of N.OVERRUN is the model's (log entry 15), and where it joins among the
notices of the same step is a free value (R195; log entry 38). -/
def Obligations.WalkMoves : Prop :=
  ∀ (s : State) (line : Line),
    let launching (e : ArmEntry) : Bool := (s.group e.group).state == .launching
    s.walk line s.sau.arm =
      { arm := s.sau.arm.filterMap fun e =>
          if e.line ≠ line then some e
          else if e.countdown ≠ 0#8 then some { e with countdown := e.countdown - 1#8 }
          else if launching e then some { e with countdown := e.skip }
          else if e.mode = .every then some { e with countdown := e.skip }
          else none
        due := (s.sau.arm.filter fun e => e.line == line && e.countdown == 0#8 && !launching e).map (·.group) } ∧
    s.edgeWalked line =
      (((s.sau.arm.filter fun e => e.line == line && e.countdown == 0#8 && launching e).map (·.group)).foldl
        (fun t g => t.overrun g line (s.line line).counter) s).setArm (s.walk line s.sau.arm).arm ∧
    (∀ gs : List (Fin 8), s.launchAll line gs =
      gs.foldl (fun t g => t.launch (some ⟨(s.line line).counter, line⟩) g) s) ∧
    ∀ (g : Fin 8) (number : Half),
      s.overrun g line number =
        (s.setGroup g { s.group g with overrunSeen := true }).notify 0x02#8
          ([natByte g.val, lineByte line] ++ halfBytes number ++
            (match (s.group g).launchEdge with
              | none => [0#8, 0#8, 0#8]
              | some e => halfBytes e.number ++ [lineByte e.line]) ++ natHalf (s.account g).pending)

/-- The pulse filter (R60): a level in its hold, the first level passed, a transition that matches `edge` and one that
does not. How the hold starts and ends and the filter first settles is the model's reading (log entry 31), and a settling
with no hold changes nothing by its choice (log entry 3). -/
def Obligations.PulseFilter : Prop :=
  ∀ (s : State) (line : Line) (level : Bool), s.live = true →
    exec (.syncLevelChange line level) s =
      .next ((s.setPinLevel line level).setLine line
        { s.line line with hold := decide ((s.line line).filtered ≠ some level) }).arbitrated ∧
    ((s.line line).hold = false → exec (.syncFilterSettled line) s = .next s.arbitrated) ∧
    ((s.line line).hold = true → s.pinLevel line = level →
      let t := s.setLine line { s.line line with filtered := some level, hold := false }
      let accepted : Prop := ((s.line line).edge = .both ∨ ((s.line line).edge = .rising ∧ level = true) ∨
        ((s.line line).edge = .falling ∧ level = false))
      ((s.line line).filtered = some (!level) → accepted →
        exec (.syncFilterSettled line) s = .next (t.edge line).arbitrated) ∧
      (((s.line line).filtered ≠ some (!level) ∨ ¬ accepted) →
        exec (.syncFilterSettled line) s = .next t.arbitrated))

/-! ## Trim loops -/

/-- LOOP.SET and LOOP.QUERY (R103, R105, R106): the checks in their order, the configuration a SET leaves, `skip seen`
cleared as a QUERY reports it, the ranges of every configuration that is taken, field by field from the request's items,
what fits the widths of its targets, and the loop block read back. The order of the jobs in the reply
and the report of `last follower value` are the model's (log entries 14 and 17), and so is that an absent follower's
items are not checked (log entry 18). -/
def Obligations.LoopSetAndQuery : Prop :=
  (∀ (s : State) (h : ReqHead) (n : Fin 4), s.admits h →
    let x := s.loop n
    (∀ r : RawLoop, r.points.length ≤ 8 →
      (x.state.running = true → exec (.loopSet h (natByte n.val) r) s = .next (s.replied h 0x40#8 .wrongState [])) ∧
      (x.state.running = false →
        (loopCfgOf r = none → exec (.loopSet h (natByte n.val) r) s = .next (s.replied h 0x40#8 .badArg [])) ∧
        ∀ c, loopCfgOf r = some c →
          (c.fits s.tgt = false → exec (.loopSet h (natByte n.val) r) s = .next (s.replied h 0x40#8 .badArg [])) ∧
          (c.fits s.tgt = true →
            exec (.loopSet h (natByte n.val) r) s =
              .next ((s.setLoop n { x with configured := true, cfg := c }).replied h 0x40#8 .ok [])))) ∧
    exec (.loopQuery h (natByte n.val)) s =
      .next ((s.setLoop n { x with skipSeen := false }).replied h 0x43#8 .ok
        (loopBlock x.configured x.cfg ++ [x.state.byte] ++ valBytes x.output ++
          optional 4 (x.cfg.follower.map fun _ => valBytes x.lastFollower) ++
          optional 4 (x.lastMeasure.map valBytes) ++
          [natByte x.edgeCount, x.cycle.byte, flagByte x.stale, flagByte x.skipSeen, natByte x.jobsOut] ++
          (upTo 4).flatMap fun l =>
            (((s.lane l).flight.toList.map (·.job) ++ (s.lane l).queue).filter (Job.ofLoop n)).flatMap fun j =>
              [j.kindByte, natByte l.val]))) ∧
  (∀ r : RawLoop, (loopCfgOf r).isSome = true ↔
    r.line.toNat ≤ 1 ∧ 1 ≤ r.period.toNat ∧ r.period.toNat ≤ 16 ∧ r.measTarget.toNat ≤ 15 ∧ r.outTarget.toNat ≤ 15 ∧
    1 ≤ r.step.toNat ∧ r.narrow.toNat ≤ r.wide.toNat ∧ r.min.toNat ≤ r.initialOutput.toNat ∧
    r.initialOutput.toNat ≤ r.max.toNat ∧ r.polarity.toNat ≤ 1 ∧ r.fast.toNat ≤ 1 ∧ r.autostart.toNat ≤ 1 ∧
    r.followerPresent.toNat ≤ 1 ∧
    (r.followerPresent = 1#8 →
      r.followerTarget.toNat ≤ 15 ∧ 2 ≤ r.points.length ∧ r.points.length ≤ 8 ∧
      r.points.Pairwise (fun p q => p.1.toNat < q.1.toNat) ∧
      (r.followerTarget ≠ r.outTarget ∨ r.followerReg ≠ r.outReg))) ∧
  (∀ (r : RawLoop) (c : LoopCfg), loopCfgOf r = some c →
    lineByte c.line = r.line ∧ c.period = r.period ∧ natByte c.measTarget.val = r.measTarget ∧ c.measReg = r.measReg ∧
    natByte c.outTarget.val = r.outTarget ∧ c.outReg = r.outReg ∧ c.setpoint = r.setpoint ∧ c.step = r.step ∧
    c.narrow = r.narrow ∧ c.wide = r.wide ∧ c.min = r.min ∧ c.max = r.max ∧ c.polarity.byte = r.polarity ∧
    flagByte c.fast = r.fast ∧ c.initialOutput = r.initialOutput ∧ flagByte c.autostart = r.autostart ∧
    (r.followerPresent = 0#8 → c.follower = none) ∧
    (r.followerPresent = 1#8 →
      ∃ t : Fin 16, natByte t.val = r.followerTarget ∧ c.follower = some ⟨t, r.followerReg, r.points⟩) ∧
    ∀ configured : Bool,
      let block := loopBlock configured c
      block.length = 107 ∧ byteAt block 0 = flagByte configured ∧
      loopCfgOf (rawLoopAt block 1 (byteAt block 42).toNat) = some c) ∧
  (∀ (c : LoopCfg) (tgt : Table TargetEntry 16),
    let reg (t : Fin 16) (x : Half) : Prop := x.toNat ≤ tgt[t].cfg.regWidth.last
    let value (t : Fin 16) (x : Val) : Prop := x.toNat < 2 ^ (8 * tgt[t].cfg.dataWidth.bytes)
    c.fits tgt = true ↔
      reg c.measTarget c.measReg ∧ reg c.outTarget c.outReg ∧ value c.outTarget c.min ∧ value c.outTarget c.max ∧
      value c.outTarget c.initialOutput ∧
      ∀ f, c.follower = some f → reg f.target f.reg ∧ ∀ p ∈ f.points, value f.target p.2) ∧
  ∀ (r : RawLoop) (c : LoopCfg), loopCfgOf r = some c →
    1 ≤ c.period.toNat ∧ c.period.toNat ≤ 16 ∧ 1 ≤ c.step.toNat ∧ c.narrow.toNat ≤ c.wide.toNat ∧
    c.min.toNat ≤ c.initialOutput.toNat ∧ c.initialOutput.toNat ≤ c.max.toNat ∧
    ∀ f, c.follower = some f → 2 ≤ f.points.length ∧ f.points.length ≤ 8 ∧
      f.points.Pairwise (fun p q => p.1.toNat < q.1.toNat) ∧ (f.target ≠ c.outTarget ∨ f.reg ≠ c.outReg)

/-- LOOP.START (R107, R108): its checks in their order, the entry it leaves and its seed jobs. -/
def Obligations.LoopStartSeeds : Prop :=
  ∀ (s : State) (n : Fin 4),
    let x := s.loop n
    (∀ h, s.admits h →
      (∀ st, s.startRefusal n = some st →
        exec (.loopStart h (natByte n.val)) s = .next (s.replied h 0x41#8 st [])) ∧
      (s.startRefusal n = none →
        exec (.loopStart h (natByte n.val)) s =
          .next (((((s.accepted h 0x41#8).startLoop n).answer h.tag .ok []).settleLanes).arbitrated))) ∧
    (x.state.running = true → s.startRefusal n = some .wrongState) ∧
    (x.state.running = false →
      (x.configured = false → s.startRefusal n = some .notConfigured) ∧
      (x.configured = true →
        (((∃ t ∈ x.cfg.targets, (s.target t).cfg.enabled = false) ∨ x.cfg.fits s.tgt = false) →
          s.startRefusal n = some .badArg) ∧
        ((∀ t ∈ x.cfg.targets, (s.target t).cfg.enabled = true) → x.cfg.fits s.tgt = true →
          ((∃ t ∈ x.cfg.targets, (s.target t).fault ≠ none) → s.startRefusal n = some .targetFaulted) ∧
          ((∀ t ∈ x.cfg.targets, (s.target t).fault = none) →
            (x.jobsOut ≠ 0 → s.startRefusal n = some .laneBusy) ∧
            (x.jobsOut = 0 → s.startRefusal n = none))))) ∧
    (x.cfg.follower = none →
      s.startLoop n =
        (s.setLoop n { x with
          output := x.cfg.initialOutput, edgeCount := 0, lastMeasure := none, stale := false, skipSeen := false
          state := .tracking, cycle := .output, jobsOut := 1 }).appendJob (s.target x.cfg.outTarget).cfg.lane
          (.loop n .outputSeed x.cfg.outTarget x.cfg.outReg x.cfg.initialOutput)) ∧
    ∀ f, x.cfg.follower = some f →
      s.startLoop n =
        ((s.setLoop n { x with
          output := x.cfg.initialOutput, lastFollower := f.lookup x.cfg.initialOutput, edgeCount := 0
          lastMeasure := none, stale := false, skipSeen := false, state := .tracking, cycle := .output
          jobsOut := 2 }).appendJob (s.target x.cfg.outTarget).cfg.lane
          (.loop n .outputSeed x.cfg.outTarget x.cfg.outReg x.cfg.initialOutput)).appendJob (s.target f.target).cfg.lane
          (.loop n .followerSeed f.target f.reg (f.lookup x.cfg.initialOutput))

/-- LOOP.STOP and PART.RESET LOOPS (R110, R127): queued jobs of the loop leave every lane, the run ends, and what the
loop holds is kept. -/
def Obligations.LoopsStop : Prop :=
  ∀ s : State,
    (∀ (h : ReqHead) (n : Fin 4), s.admits h →
      ((s.loop n).state = .stopped →
        exec (.loopStop h (natByte n.val)) s =
          .next (s.replied h 0x42#8 .ok [0#8, natByte (s.flightCount (Job.ofLoop n))])) ∧
      ((s.loop n).state ≠ .stopped →
        exec (.loopStop h (natByte n.val)) s =
          .next ((s.stopLoop n).replied h 0x42#8 .ok
            [natByte (s.queuedCount (Job.ofLoop n)), natByte (s.flightCount (Job.ofLoop n))]))) ∧
    (∀ n : Fin 4,
      let t := s.stopLoop n
      t.loop n =
        { s.loop n with
          state := .stopped, cycle := .none, stale := false, edgeCount := 0
          jobsOut := (s.loop n).jobsOut - s.queuedCount (Job.ofLoop n) } ∧
      (∀ m, m ≠ n → t.loop m = s.loop m) ∧
      (∀ l, t.lane l = { s.lane l with queue := (s.lane l).queue.filter fun j => !Job.ofLoop n j }) ∧
      t.gtb = s.gtb ∧ t.lsq = s.lsq ∧ t.tgt = s.tgt ∧ t.sau = s.sau ∧ t.psc = s.psc ∧ t.hpt = s.hpt) ∧
    (∀ h : ReqHead, s.admits h → ∃ t : State,
      exec (.partResetLoops h) s = .next (t.replied h 0x72#8 .ok []) ∧ t.hpt = s.hpt ∧
      (∀ n, t.loop n =
        { s.loop n with
          state := .stopped, cycle := .none, stale := false, skipSeen := false, edgeCount := 0
          jobsOut := (s.loop n).jobsOut - s.queuedCount (Job.ofLoop n) }) ∧
      (∀ l, t.lane l = { s.lane l with queue := (s.lane l).queue.filter fun j =>
        match j with | .loop _ _ _ _ _ => false | .record _ _ _ => true | .read _ _ _ => true }) ∧
      t.gtb = s.gtb ∧ t.lsq = s.lsq ∧ t.tgt = s.tgt ∧ t.sau = s.sau ∧ t.psc = s.psc)

/-- The follower lookup (R119): the value of the last point whose key is not greater, else that of the first. -/
def Obligations.FollowerLookup : Prop :=
  ∀ (f : Follower) (v : Val), f.points.Pairwise (fun p q => p.1.toNat < q.1.toNat) →
    (∀ p ∈ f.points, p.1.toNat ≤ v.toNat → (∀ q ∈ f.points, q.1.toNat ≤ v.toNat → q.1.toNat ≤ p.1.toNat) →
      f.lookup v = p.2) ∧
    (∀ p rest, f.points = p :: rest → (∀ q ∈ f.points, v.toNat < q.1.toNat) → f.lookup v = p.2)

/-- The decision on a measure and the adjustment (R113 to R116), and the N.LOOP of an entry to SETTLED or LIMITED: the loop,
its new state, output, setpoint and last measure, the error as sign and magnitude, and no cause (R121, R204). Where the
N.LOOP joins among the notices of the same step, and whether a free transmitter takes it at once, are free values (log
entries 38 and 5). -/
def Obligations.LoopDecision : Prop :=
  ∀ (s : State) (n : Fin 4) (m : Val),
    let x := { s.loop n with lastMeasure := some m }
    let e : Int := if x.cfg.polarity = .direct then (x.cfg.setpoint.toNat : Int) - m.toNat
      else (m.toNat : Int) - x.cfg.setpoint.toNat
    let ends (st : LoopState) : State := s.setLoop n { x with cycle := .none, stale := false, state := st }
    let rests (st : LoopState) : State := (ends st).notifyLoop n (some e) none
    let delta : Nat := if x.cfg.fast = true ∧ 4 * x.cfg.wide.toNat < e.natAbs then 4 * x.cfg.step.toNat else x.cfg.step.toNat
    let v := x.cfg.adjusted x.output e
    let adjusts (st : LoopState) : Prop :=
      (v = x.output → st = .limited → s.measured n m = ends .limited) ∧
      (v = x.output → st = .tracking → s.measured n m = rests .limited) ∧
      (v ≠ x.output → s.measured n m = (s.setLoop n { x with state := st }).appendAdjustment n v)
    ((x.state = .tracking ∨ x.state = .limited) →
      (e.natAbs ≤ x.cfg.narrow.toNat → s.measured n m = rests .settled) ∧
      (x.cfg.narrow.toNat < e.natAbs → adjusts x.state)) ∧
    (x.state = .settled →
      (e.natAbs ≤ x.cfg.wide.toNat → s.measured n m = ends .settled) ∧
      (x.cfg.wide.toNat < e.natAbs → adjusts .tracking)) ∧
    (∀ st, (rests st).hpt =
      (s.notify 0x04#8 ([natByte n.val, st.byte] ++ valBytes x.output ++ valBytes x.cfg.setpoint ++ [1#8] ++ valBytes m ++
        [1#8, (if e < 0 then 1#8 else 0#8)] ++ valBytes (BitVec.ofNat 32 e.natAbs) ++ List.replicate 6 0#8)).hpt ∧
      (rests st).tlu = (ends st).tlu ∧ (rests st).lanes = s.lanes) ∧
    (e ≠ 0 → x.cfg.min.toNat ≤ x.cfg.max.toNat →
      let sum : Int := if 0 < e then (x.output.toNat : Int) + delta else (x.output.toNat : Int) - delta
      ((x.cfg.max.toNat : Int) < sum → v = x.cfg.max) ∧ (sum < (x.cfg.min.toNat : Int) → v = x.cfg.min) ∧
      ((x.cfg.min.toNat : Int) ≤ sum → sum ≤ (x.cfg.max.toNat : Int) → (v.toNat : Int) = sum)) ∧
    ∀ (w : Val),
      let y := s.loop n
      let job (k : LoopJobKind) (t : Fin 16) (reg : Half) (z : Val) (u : State) : State :=
        u.appendJob (s.target t).cfg.lane (.loop n k t reg z)
      ((y.cfg.follower = none ∨ ∃ f, y.cfg.follower = some f ∧ f.lookup w = y.lastFollower) →
        s.appendAdjustment n w =
          job .output y.cfg.outTarget y.cfg.outReg w (s.setLoop n { y with cycle := .output, jobsOut := 1 })) ∧
      (∀ f, y.cfg.follower = some f → f.lookup w ≠ y.lastFollower →
        s.appendAdjustment n w =
          job .follower f.target f.reg (f.lookup w)
            (job .output y.cfg.outTarget y.cfg.outReg w (s.setLoop n { y with cycle := .output, jobsOut := 2 })))

/-- What reaches a loop from the other blocks: the hand-on of a group write (R122), a SETPOINT record at its lane head
(R125), and an accepted edge (R112): passed by, counted, due with a measure, or lost to a cycle in flight; every loop in
turn. `stale` is set for a write still queued (R122) and for an output job in flight (R124, as log entry 13 reads the
two). The order of the loops is the model's choice (log entry 6). -/
def Obligations.LoopTakesEdgesAndWrites : Prop :=
  (∀ (s : State) (n : Fin 4),
    let x := s.loop n
    (∀ (t : Fin 16) (writes : List (Half × Val)),
      ((x.state.running = false ∨ x.cfg.outTarget ≠ t ∨ ∀ w ∈ writes, w.1 ≠ x.cfg.outReg) → s.adopt t writes n = s) ∧
      (∀ front v back, writes = front ++ (x.cfg.outReg, v) :: back → (∀ w ∈ back, w.1 ≠ x.cfg.outReg) →
        x.state.running = true → x.cfg.outTarget = t →
        s.adopt t writes n =
          s.setLoop n { x with
            output := v, state := .tracking
            stale := x.stale || decide (x.cycle = .output ∧
              ((∃ l, ∃ j ∈ (s.lane l).queue, j.writeOfLoop n = true) ∨
                ∃ l, ((s.lane l).flight.any fun f => f.job.outputOfLoop n) = true)) })) ∧
    ∀ v, s.applySetpoint n v =
      s.setLoop n { x with
        cfg := { x.cfg with setpoint := v }, state := if x.state = .settled then .tracking else x.state }) ∧
  (∀ (s : State) (line : Line) (t : Fin 16) (writes : List (Half × Val)),
    s.loopsEdge line = (((s.loopEdge line 0).loopEdge line 1).loopEdge line 2).loopEdge line 3 ∧
    s.handOn t writes = (((s.adopt t writes 0).adopt t writes 1).adopt t writes 2).adopt t writes 3) ∧
  ∀ (s : State) (line : Line) (n : Fin 4),
    let x := s.loop n
    ((x.cfg.line ≠ line ∨ x.state.running = false) → s.loopEdge line n = s) ∧
    (x.cfg.line = line → x.state.running = true →
      (x.edgeCount + 1 < x.cfg.period.toNat → s.loopEdge line n = s.setLoop n { x with edgeCount := x.edgeCount + 1 }) ∧
      (x.cfg.period.toNat ≤ x.edgeCount + 1 →
        (x.cycle = .none →
          s.loopEdge line n =
            (s.setLoop n { x with edgeCount := 0, cycle := .measure, jobsOut := 1 }).appendJob
              (s.target x.cfg.measTarget).cfg.lane (.loop n .measure x.cfg.measTarget x.cfg.measReg 0#32)) ∧
        (x.cycle ≠ .none → s.loopEdge line n = s.setLoop n { x with edgeCount := 0, skipSeen := true })))

/-- The end of a loop's job (R109, R111, R113, R117, R118, R120): a leftover only lowers `jobs out`; a measure goes to the
decision; a landed write, a drop and a failure act on the cycle. An output seed ends with `output` at the value written,
which R109 says it holds already, and R124 asks for after an adoption in between (the model's reading, log entry 35).
Where the N.LOOP joins among the notices of the same step, and whether a free transmitter takes it at once, are free values
(log entries 38 and 5). -/
def Obligations.LoopJobEnds : Prop :=
  ∀ (s : State) (n : Fin 4) (k : LoopJobKind) (t : Fin 16) (reg : Half),
    let x := { s.loop n with jobsOut := (s.loop n).jobsOut - 1 }
    let ended (y : LoopEntry) : LoopEntry := if x.jobsOut = 0 then { y with cycle := .none, stale := false } else y
    (x.cycle = .none → ∀ e, s.loopJobEnd n k t reg e = s.setLoop n x) ∧
    (x.cycle ≠ .none →
      (∀ v, k = .measure → s.loopJobEnd n k t reg (.success v) = (s.setLoop n x).measured n v) ∧
      (∀ v, k = .output → s.loopJobEnd n k t reg (.success v) =
        s.setLoop n (ended { x with output := v, state := if x.state = .limited then .tracking else x.state })) ∧
      (∀ v, k = .follower → s.loopJobEnd n k t reg (.success v) = s.setLoop n (ended { x with lastFollower := v })) ∧
      (∀ v, k = .outputSeed → s.loopJobEnd n k t reg (.success v) = s.setLoop n (ended { x with output := v })) ∧
      (∀ v, k = .followerSeed → s.loopJobEnd n k t reg (.success v) = s.setLoop n (ended x)) ∧
      (k ≠ .measure → s.loopJobEnd n k t reg .dropped = s.setLoop n (ended x)) ∧
      (∀ (e : LoopEnd) (b : Byte), ((∃ r : Reason, e = .failed r ∧ b = r.byte) ∨ (e = .skipped ∧ b = 6#8)) →
        let u := s.loopJobEnd n k t reg e
        let y := { x with
          state := .faulted, cycle := .none, stale := false
          jobsOut := x.jobsOut - s.queuedCount (Job.ofLoop n) }
        u.loop n = y ∧ (∀ m, m ≠ n → u.loop m = s.loop m) ∧
        (∀ l, u.lane l = { s.lane l with queue := (s.lane l).queue.filter fun j => !Job.ofLoop n j }) ∧
        u.tgt = s.tgt ∧ u.gtb = s.gtb ∧
        u.fresh = s.fresh + 1 ∧
        u.hpt = (s.notify 0x04#8 ([natByte n.val, 4#8] ++ valBytes y.output ++ valBytes y.cfg.setpoint ++
          optional 4 (y.lastMeasure.map valBytes) ++ optional 5 none ++
          optional 5 (some ([k.byte, natByte t.val] ++ halfBytes reg ++ [b])))).hpt))

/-! ## The profile store -/

/-- SLOT.PROTECT (R140): taken for every slot in every state, with nothing but `protected` changed. -/
def Obligations.SlotProtectSetsFlag : Prop :=
  ∀ (s : State) (h : ReqHead), s.admits h →
    (∀ b : Byte, 32 ≤ b.toNat → exec (.slotProtect h b) s = .next (s.replied h 0x53#8 .badArg [])) ∧
    ∀ i : Fin 32,
      exec (.slotProtect h (natByte i.val)) s =
        .next ((s.setSlot i { s.slot i with isProtected := true }).replied h 0x53#8 .ok
          [1#8, flagByte (s.slot i).isLocked])

/-- SLOT.UNPROTECT, SLOT.FREEZE and SLOT.LIST (R141, R144, R145): what each changes and reports. -/
def Obligations.SlotGuardRequests : Prop :=
  ∀ (s : State) (h : ReqHead), s.admits h →
    (∀ i : Fin 32,
      ((s.slot i).isLocked = true →
        exec (.slotUnprotect h (natByte i.val)) s = .next (s.replied h 0x54#8 .slotLocked [])) ∧
      ((s.slot i).isLocked = false →
        exec (.slotUnprotect h (natByte i.val)) s =
          .next ((s.setSlot i { s.slot i with isProtected := false }).replied h 0x54#8 .ok [0#8, 0#8]))) ∧
    exec (.slotFreeze h) s =
      .next (State.replied { s with psc := { s.psc with frozen := true } } h 0x56#8 .ok []) ∧
    exec (.slotList h) s =
      .next (s.replied h 0x57#8 .ok ((upTo 32).flatMap (fun i =>
        [(s.slot i).state.byte, flagByte (s.slot i).isProtected, flagByte (s.slot i).isLocked] ++
          match (s.slot i).state with
          | .valid info => 1#8 :: (info.label.toList ++ halfBytes info.count ++ halfBytes info.length)
          | .blank => List.replicate 13 0#8
          | .invalid => List.replicate 13 0#8
          | .busy => List.replicate 13 0#8) ++ [flagByte s.psc.frozen]))

/-- The acceptance of the five store requests (R152, R156, R160, R162, R164), with the pin or the reservation made in
the same step; an accepted operation joins the queue and its request stays outstanding; in every state, the start's internal
load among them (R171), an IDLE engine chooses at once (R150), and during an erase the conditions of a suspension are judged
(R166). -/
def Obligations.StoreRequestsAccepted : Prop :=
  (∀ (s : State) (h : ReqHead), s.admits h →
    (∀ (i : Fin 32) (g : Fin 8) (label : Label),
      let e := s.slot i
      let x := s.group g
      let saved (st : Status) := exec (.slotSave h (natByte g.val) (natByte i.val) label) s = .next (s.replied h 0x50#8 st [])
      (e.isLocked = true → saved .slotLocked) ∧
      (e.isLocked = false → e.isProtected = true → saved .slotProtected) ∧
      (e.isLocked = false → e.isProtected = false →
        (x.state ≠ .ready → x.state ≠ .armed → x.state ≠ .launching → saved .wrongState) ∧
        ((x.state = .ready ∨ x.state = .armed ∨ x.state = .launching) →
          (4064 < payloadLength x.records → saved .tooLarge) ∧
          (payloadLength x.records ≤ 4064 →
            exec (.slotSave h (natByte g.val) (natByte i.val) label) s =
              .next (((((s.accepted h 0x50#8).setGroup g { x with pins := x.pins + 1 }).accept (.save g i label)
                (some h.tag))).arbitrated))))) ∧
    (∀ (i : Fin 32) (g : Fin 8),
      ((s.group g).state ≠ .empty →
        exec (.slotLoad h (natByte i.val) (natByte g.val)) s = .next (s.replied h 0x51#8 .wrongState [])) ∧
      ((s.group g).state = .empty →
        exec (.slotLoad h (natByte i.val) (natByte g.val)) s =
          .next ((((s.accepted h 0x51#8).setGroup g { s.group g with state := .loading }).accept (.load i g)
            (some h.tag)).arbitrated))) ∧
    (∀ i : Fin 32,
      let e := s.slot i
      (e.isLocked = true → exec (.slotErase h (natByte i.val)) s = .next (s.replied h 0x52#8 .slotLocked [])) ∧
      (e.isLocked = false → e.isProtected = true →
        exec (.slotErase h (natByte i.val)) s = .next (s.replied h 0x52#8 .slotProtected [])) ∧
      (e.isLocked = false → e.isProtected = false →
        exec (.slotErase h (natByte i.val)) s =
          .next ((((s.accepted h 0x52#8).accept (.erase i) (some h.tag))).arbitrated)) ∧
      (s.psc.frozen = true → exec (.slotLock h (natByte i.val)) s = .next (s.replied h 0x55#8 .frozen [])) ∧
      (s.psc.frozen = false →
        exec (.slotLock h (natByte i.val)) s =
          .next ((((s.accepted h 0x55#8).accept (.lock i) (some h.tag))).arbitrated))) ∧
    exec (.setupSave h) s = .next ((((s.accepted h 0x60#8).accept .setupSave (some h.tag))).arbitrated)) ∧
  ∀ (s : State) (kind : StoreKind) (origin : Option Byte),
    let t : State := { s with psc := { s.psc with
      queue := s.psc.queue ++ [⟨kind, origin, s.psc.accepted⟩], accepted := s.psc.accepted + 1 } }
    let judged (u : State) : State := { u with psc := { u.psc with suspending := true } }
    (s.psc.engine = .idle →
      ((∀ w, t.choose.psc.engine ≠ .erasing w) → s.accept kind origin = t.choose) ∧
      ∀ w, t.choose.psc.engine = .erasing w →
        (t.choose.nextLoad ≠ none → t.choose.psc.guard = false → s.accept kind origin = judged t.choose) ∧
        (t.choose.nextLoad = none ∨ t.choose.psc.guard = true → s.accept kind origin = t.choose)) ∧
    (s.psc.engine ≠ .idle → (∀ w, s.psc.engine ≠ .erasing w) → s.accept kind origin = t) ∧
    ∀ w, s.psc.engine = .erasing w →
      (t.nextLoad ≠ none → s.psc.guard = false → s.accept kind origin = judged t) ∧
      (t.nextLoad = none ∨ s.psc.guard = true → s.accept kind origin = t)

/-- The engine's choice at IDLE and the start of each kind of operation (R150, R153, R157, R160, R162, R164): the start
checks, and for array work the marker clear, BUSY, and the captured image (10.5.1); the engine released, with the guard
cancelled (R150, R169). -/
def Obligations.StoreOperationsStart : Prop :=
  ∀ (s : State) (op : StoreOp),
    (∀ front back, s.psc.queue = front ++ op :: back → s.eligible op = true → (∀ x ∈ front, s.eligible x = false) →
      s.nextOp = some op) ∧
    (∀ back, s.psc.queue = op :: back → (∀ x ∈ s.psc.queue, s.eligible x = false) → s.nextOp = some op) ∧
    (s.eligible op = true ↔ ∃ i g, op.kind = .load i g ∧ (s.slot i).state ≠ .busy) ∧
    (∀ front back, s.psc.queue = front ++ op :: back → s.eligible op = true → (∀ x ∈ front, s.eligible x = false) →
      s.nextLoad = some op) ∧
    ((∀ x ∈ s.psc.queue, s.eligible x = false) → s.nextLoad = none) ∧
    (∀ k, (s.psc.engine ≠ .idle ∨ s.psc.queue = []) → State.chooseFrom k s = s) ∧
    (∀ k, s.psc.engine = .idle → s.nextOp = some op →
      State.chooseFrom (k + 1) s = State.chooseFrom k ((s.dequeue op).startOp op)) ∧
    s.dequeue op = { s with psc := { s.psc with queue := s.psc.queue.eraseP (· == op) } } ∧
    s.engineFree = State.choose { s with psc := { s.psc with engine := .idle, guard := false, suspending := false } } ∧
    (∀ (rs : List Record) (label : Label),
      let payload := rs.flatMap Record.bytes
      slotImage rs label =
        valBytes 0x6C2E93D5#32 ++ [1#8, 0#8] ++ natHalf rs.length ++ natHalf payload.length ++ [0#8, 0#8] ++
          valBytes (crc32 payload) ++ label.toList ++ List.replicate 8 0#8 ++ payload) ∧
    (s.psc.engine = .idle → s.nextOp = some op → s.psc.queue.length ≠ 0 →
      s.choose = State.chooseFrom (s.psc.queue.length - 1) ((s.dequeue op).startOp op)) ∧
    (∀ i g, op.kind = .load i g → s.startOp op = s.setEngine (.reading op)) ∧
    (∀ i, op.kind = .lock i →
      (s.psc.frozen = true → s.startOp op = s.replyTo op .frozen []) ∧
      (s.psc.frozen = false → s.startOp op = s.setEngine (.fusing op i))) ∧
    (∀ i, op.kind = .erase i →
      ((s.slot i).isLocked = true → s.startOp op = s.replyTo op .slotLocked []) ∧
      ((s.slot i).isLocked = false → (s.slot i).isProtected = true → s.startOp op = s.replyTo op .slotProtected []) ∧
      ((s.slot i).isLocked = false → (s.slot i).isProtected = false →
        s.startOp op =
          { s with
            nv := { s.nv with mem := Memory.clearMarker s.nv.mem i.val }
            psc := { s.psc with
              dir := s.psc.dir.set i { s.slot i with state := .busy }, engine := .erasing ⟨op, [], none⟩ } })) ∧
    (∀ g i label, op.kind = .save g i label →
      let x := s.group g
      let unpinned := s.setGroup g { x with pins := x.pins - 1 }
      ((s.slot i).isLocked = true → s.startOp op = unpinned.replyTo op .slotLocked []) ∧
      ((s.slot i).isLocked = false → (s.slot i).isProtected = true →
        s.startOp op = unpinned.replyTo op .slotProtected []) ∧
      ((s.slot i).isLocked = false → (s.slot i).isProtected = false →
        s.startOp op =
          { unpinned with
            nv := { s.nv with mem := Memory.clearMarker s.nv.mem i.val }
            psc := { s.psc with
              dir := s.psc.dir.set i { s.slot i with state := .busy }
              engine := .erasing ⟨op, slotImage x.records label,
                some ⟨label, BitVec.ofNat 16 x.records.length, BitVec.ofNat 16 (payloadLength x.records)⟩⟩ } })) ∧
    (op.kind = .setupSave →
      s.startOp op =
        { s with
          nv := { s.nv with mem := Memory.clearMarker s.nv.mem 32 }
          psc := { s.psc with engine := .erasing ⟨op, setupImage s, none⟩ } })

/-- The ends of an erase and of a page program (R130, R154, R155, R161, R163), and what a failed one leaves: the cells that
the verify found, but that a failed setup save's header is erased before page 0 (R163), so that a start reads BLANK (R180),
and that a slot reads blank or invalid after a failed erase (R157) and blank after a failed payload page (R155). That the array's
outcome is an operand is the model's choice (log entry 10), and so is the marker byte that is erased where an operand would name
a whole image (log entry 42). -/
def Obligations.EraseAndProgramEnds : Prop :=
  ∀ (s : State) (w : Work), s.live = true →
    (s.psc.engine = .erasing w →
      let erased := s.setMem (Memory.eraseUnit s.nv.mem w.op.unit)
      (∀ i, w.op.kind = .erase i →
        exec (.eraseComplete []) s =
          .next (((erased.setSlotState i .blank).replyTo w.op .ok []).engineFree).arbitrated) ∧
      ((w.op.kind = .setupSave ∨ ∃ g i label, w.op.kind = .save g i label) →
        exec (.eraseComplete []) s = .next (erased.nextPages w (imagePages w.image)).arbitrated) ∧
      (∀ left, WellFormed (.eraseComplete left) = true → left ≠ [] → Memory.wf s.nv.mem →
        let u := w.op.unit
        ∃ m, exec (.eraseComplete left) s =
            .next ((((s.setMem m).setOpSlot w.op .invalid).replyTo w.op .storeFault [0#8]).engineFree).arbitrated ∧
          Memory.wf m ∧ (∀ a, a / 4096 ≠ u → Memory.read m a = Memory.read s.nv.mem a) ∧
          (∀ o < 4096, (∀ b, (o, b) ∉ left) → Memory.read m (u * 4096 + o) = 0xFF#8) ∧
          (u = 32 → readSetup m = (.blank, none) ∧ (∀ o < 16, Memory.read m (131072 + o) = 0xFF#8) ∧
            ∀ o b, 16 ≤ o → (o, b) ∈ left → Memory.read m (131072 + o) = b) ∧
          ∀ i : Fin 32, u = i.val →
            (classifySlot m i = .blank ∨ classifySlot m i = .invalid) ∧
            (∀ o b, o ≠ 3 → (o, b) ∈ left → Memory.read m (u * 4096 + o) = b) ∧
            ((∃ c ∈ [(0, 0xD5#8), (1, 0x93#8), (2, 0x2E#8), (3, 0x6C#8)], c ∉ left) →
              ∀ b, (3, b) ∈ left → Memory.read m (u * 4096 + 3) = b)) ∧
      (∀ o b, o < 4096 → b ≠ 0xFF#8 → (w.op.unit = 32 → 16 ≤ o) →
        exec (.eraseComplete [(o, b)]) s =
          .next ((((s.setMem (Memory.write (Memory.eraseUnit s.nv.mem w.op.unit) (w.op.unit * 4096 + o) b)).setOpSlot
            w.op .invalid).replyTo w.op .storeFault [0#8]).engineFree).arbitrated)) ∧
    (∀ (p : Fin 16) (pages : List (Fin 16)), s.psc.engine = .programming w (p :: pages) →
      let base := w.op.unit * 4096 + p.val * 256
      let wanted := imagePage w.image p.val
      (∀ left, (left = none ∨ ∃ l, left = some l ∧ l.length = 256) →
        let m := Memory.programAll s.nv.mem base (left.getD wanted)
        (Memory.wf s.nv.mem →
          (∀ a, a / 256 ≠ w.op.unit * 16 + p.val → Memory.read m a = Memory.read s.nv.mem a) ∧
          (s.workLaw → p ≠ 0 →
            (∀ i : Fin 32, w.op.unit = i.val → classifySlot m i = .blank) ∧
            (w.op.unit = 32 → readSetup m = (.blank, none)))) ∧
        (Memory.readAll m base 256 ≠ wanted →
          exec (.pageProgramComplete left) s =
            .next (((((s.setMem m).setOpSlot w.op .invalid).replyTo w.op .storeFault [natByte (p.val + 1)]).engineFree)).arbitrated) ∧
        (Memory.readAll m base 256 = wanted →
          (pages ≠ [] → exec (.pageProgramComplete left) s = .next ((s.setMem m).nextPages w pages).arbitrated) ∧
          (pages = [] → w.op.kind = .setupSave →
            exec (.pageProgramComplete left) s = .next (((s.setMem m).replyTo w.op .ok []).engineFree).arbitrated) ∧
          (∀ g i label info, pages = [] → w.op.kind = .save g i label → w.info = some info →
            exec (.pageProgramComplete left) s =
              .next (((((s.setMem m).setSlotState i (.valid info)).replyTo w.op .ok
                ([natByte i.val] ++ halfBytes info.count ++ halfBytes info.length)).engineFree)).arbitrated)))) ∧
    (∀ k : Fin 16, k.val * 256 < w.image.length → w.image.length ≤ k.val * 256 + 256 →
      (imagePages w.image).map (·.val) = (List.range (k.val + 1)).drop 1 ++ [0])

/-- How a load ends, the start's own apart (R157 to R159): by what the array holds, with the directory entry, the group, the
reply and the engine's next choice. The record checks: a payload that is records of table 10.4 end to end, as many as the
header counts, 1 to 256, each in the ranges of its form; unused bytes are not checked (R158, R202). -/
def Obligations.LoadEnds : Prop :=
  (∀ (m : List Host.Cell) (i : Fin 32) (info : SlotInfo) (rs : List Record),
    imageRecords m i info = some rs ↔
      rs.length = info.count.toNat ∧ 1 ≤ rs.length ∧ rs.length ≤ 256 ∧
      ∃ raws : List RawRecord, (∀ r ∈ raws, r.values.length < 256) ∧ raws.map recordOf = rs.map some ∧
        Memory.readAll m (i.val * 4096 + 32) info.length.toNat = raws.flatMap recordWire) ∧
  (∀ (word attempts : Half) (small : Byte) (vs : List Val),
    (∀ t : Fin 16,
      let taken (form : Byte) := recordOf ⟨form, natByte t.val, word, small, attempts, vs⟩
      let counted : Prop := 1 ≤ vs.length ∧ vs.length ≤ 32
      taken 1#8 = (if vs.length = 1 then some (.single t word (vs.headD 0#32)) else none) ∧
      taken 2#8 = (if 2 ≤ vs.length ∧ vs.length ≤ 32 then some (.run t word vs) else none) ∧
      (counted →
        (small = 1#8 → taken 3#8 = some (.scatter t word .up vs)) ∧
        (small = 0#8 → taken 3#8 = some (.scatter t word .stay vs)) ∧
        (small = 0xFF#8 → taken 3#8 = some (.scatter t word .down vs))) ∧
      (¬ counted ∨ (small ≠ 1#8 ∧ small ≠ 0#8 ∧ small ≠ 0xFF#8) → taken 3#8 = none) ∧
      taken 4#8 =
        (if vs.length = 2 ∧ 1 ≤ attempts.toNat ∧ attempts.toNat ≤ 1024 ∧ 1 ≤ small.toNat ∧
            vs.getD 1 0#32 &&& ~~~(vs.getD 0 0#32) = 0#32 then
          some (.poll t word (vs.getD 0 0#32) (vs.getD 1 0#32) attempts small) else none)) ∧
    (∀ k : Fin 4,
      recordOf ⟨5#8, natByte k.val, word, small, attempts, vs⟩ =
        (if vs = [] ∧ 1 ≤ word.toNat then some (.wait k word) else none) ∧
      recordOf ⟨6#8, natByte k.val, word, small, attempts, vs⟩ =
        (if vs.length = 1 then some (.setpoint k (vs.headD 0#32)) else none)) ∧
    ∀ form which : Byte,
      (form.toNat = 0 ∨ 7 ≤ form.toNat ∨ 16 ≤ which.toNat ∨ (5 ≤ form.toNat ∧ 4 ≤ which.toNat)) →
      recordOf ⟨form, which, word, small, attempts, vs⟩ = none) ∧
  ∀ (s : State) (op : StoreOp) (i : Fin 32) (g : Fin 8), op.kind = .load i g →
    (s.live = true → (op.origin ≠ none ∨ s.suc.stage ≠ .load) →
      (s.psc.engine = .reading op → exec .imageReadComplete s = .next ((s.loadEnd op i g).engineFree).arbitrated) ∧
      (∀ x, s.psc.engine = .readingUnderSuspend op x →
        exec .imageReadComplete s = .next ((s.loadEnd op i g).chooseUnder x).arbitrated)) ∧
    ((s.group g).state = .loading → (s.group g).records = [] →
      let slotted (x : SlotState) : State := s.setSlotState i x
      let emptied (t : State) : State := t.setGroup g { (t.group g).cleared with state := .empty }
      (classifySlot s.nv.mem i = .blank → s.loadEnd op i g = (emptied (slotted .blank)).replyTo op .slotBlank []) ∧
      (classifySlot s.nv.mem i = .invalid → s.loadEnd op i g = (emptied (slotted .invalid)).replyTo op .slotInvalid []) ∧
      ∀ info, classifySlot s.nv.mem i = .valid info →
        (imageRecords s.nv.mem i info = none →
          s.loadEnd op i g = (emptied (slotted .invalid)).replyTo op .slotInvalid []) ∧
        ∀ rs, imageRecords s.nv.mem i info = some rs →
          (s.gtb.free < rs.length → s.loadEnd op i g = (emptied (slotted (.valid info))).replyTo op .poolFull []) ∧
          (rs.length ≤ s.gtb.free →
            s.loadEnd op i g =
              (State.replyTo
                { slotted (.valid info) with gtb :=
                  { groups := s.gtb.groups.set g { s.group g with state := .ready, records := rs }
                    free := s.gtb.free - rs.length } }
                op .ok ([natByte i.val] ++ halfBytes info.count ++ info.label.toList))))

/-- The end of a lock programming (R131, R165), and the resume guard and the suspend latency (R166 to R169). That the
fuse's outcome is an operand is the model's choice (log entry 10). -/
def Obligations.LockAndSuspension : Prop :=
  (∀ s : State, s.live = true →
    (∀ (op : StoreOp) (i : Fin 32), s.psc.engine = .fusing op i →
      ((∀ blown, (blown = true ∨ s.nv.locks[i] = true) →
        exec (.fuseProgramComplete blown) s =
          .next (((State.replyTo
            { s with
              nv := { s.nv with locks := s.nv.locks.set i true }
              psc := { s.psc with dir := s.psc.dir.set i { s.slot i with isLocked := true, isProtected := true } } }
            op .ok []).engineFree)).arbitrated)) ∧
      (s.nv.locks[i] = false →
        exec (.fuseProgramComplete false) s = .next ((s.replyTo op .storeFault [17#8]).engineFree).arbitrated)) ∧
    (∀ w, s.psc.engine = .erasing w → s.psc.suspending = true →
      (∀ op, s.nextLoad = some op →
        exec .suspendEffect s =
          .next (State.arbitrated
            { s with psc := { s.psc with
              suspending := false, queue := s.psc.queue.eraseP (· == op)
              engine := .readingUnderSuspend op (.erase w) } })) ∧
      (s.nextLoad = none →
        exec .suspendEffect s = .next (State.arbitrated { s with psc := { s.psc with suspending := false } }))) ∧
    (s.psc.guard = true →
      (∀ w, s.psc.engine = .erasing w →
        exec .resumeGuardExpiry s =
          .next (State.arbitrated { s with psc :=
            { s.psc with guard := false, suspending := s.psc.suspending || s.nextLoad.isSome } })) ∧
      ((∀ w, s.psc.engine ≠ .erasing w) →
        exec .resumeGuardExpiry s = .next (State.arbitrated { s with psc := { s.psc with guard := false } })))) ∧
  ∀ s : State,
    (∀ (w : Work) (pages : List (Fin 16)),
      ((s.nextLoad = none ∨ s.psc.guard = true) →
        s.nextPages w pages = { s with psc := { s.psc with engine := .programming w pages, suspending := false } }) ∧
      (∀ op, s.nextLoad = some op → s.psc.guard = false →
        s.nextPages w pages =
          { s with psc := { s.psc with
            suspending := false, queue := s.psc.queue.eraseP (· == op)
            engine := .readingUnderSuspend op (.program w pages) } })) ∧
    ∀ x : Suspended,
      (s.nextLoad = none →
        s.chooseUnder x = { s with psc := { s.psc with
          guard := true, suspending := false
          engine := match x with | .erase w => .erasing w | .program w pages => .programming w pages } }) ∧
      (∀ op, s.nextLoad = some op →
        s.chooseUnder x = { s with psc := { s.psc with
          queue := s.psc.queue.eraseP (· == op), engine := .readingUnderSuspend op x } })

/-- Every step keeps the canonical form of the array's cells (a law of the model's own form of memory), that a locked
slot is protected (R139), and what the array holds while an erase or a program is under way (R130, R154). -/
def Obligations.ArrayFormAndGuardsKept : Prop :=
  ∀ s t : State, step s = .next t →
    (Memory.wf s.nv.mem → Memory.wf t.nv.mem ∧ (s.workLaw → t.workLaw)) ∧ (s.guardLaw → t.guardLaw)

/-- The content of a locked slot is fixed (R131): under the law that no erase or program is made for a slot whose lock
bit is set, no step changes a byte of such a slot or clears its bit; and every step keeps the law. -/
def Obligations.LockedSlotContentFixed : Prop :=
  ∀ s t : State, s.lockLaw → step s = .next t →
    t.lockLaw ∧
    ∀ i : Fin 32, s.nv.locks[i] = true → t.nv.locks[i] = true ∧ sameUnit s.nv.mem t.nv.mem i.val

/-- The payload of a save, read back record by record, gives the group's records (R132, R133, R158; table 10.4). -/
def Obligations.PayloadReadsBack : Prop :=
  ∀ l : List Record, (∀ r ∈ l, r.inRange = true) →
    (l.flatMap Record.bytes).length = payloadLength l ∧
    parseRecords (l.flatMap Record.bytes).length (l.flatMap Record.bytes) = some l

/-! ## Start-up -/

/-- The supply and RESETn (R174, R178, R179, R189): what each leaves, the array with what abandoned work left in it, and the
rate. What abandoned work leaves is a free value (log entry 9) within these bounds (R131, R147): an erase sets bits of
its unit only, a page program, if it had begun, clears bits of its page that the image clears, a lock programming sets its
bit or not; the unit reads BLANK or INVALID, and never VALID. The start-up fields while held, and POWER_ON of a part that has its supply,
are the model's choices (log entries 21 and 22). -/
def Obligations.PowerAndResetStart : Prop :=
  (baudOf ⟨false, false⟩ = .b115200 ∧ baudOf ⟨false, true⟩ = .b1000000 ∧ baudOf ⟨true, false⟩ = .b3000000 ∧
    baudOf ⟨true, true⟩ = .b115200) ∧
  (∀ s : State, Memory.wf s.nv.mem → s.workLaw →
    let n := s.nv.abandoned s.psc.engine s.fresh
    let old (a : Nat) : Byte := Memory.read s.nv.mem a
    let new (a : Nat) : Byte := Memory.read n.mem a
    let invalid (u : Nat) : Prop :=
      (∀ i : Fin 32, u = i.val → classifySlot n.mem i = .invalid) ∧ (u = 32 → readSetup n.mem = (.invalid, none))
    let blank (u : Nat) : Prop :=
      (∀ i : Fin 32, u = i.val → classifySlot n.mem i = .blank) ∧ (u = 32 → readSetup n.mem = (.blank, none))
    n.id = s.nv.id ∧
    (∀ w, s.psc.engine.eraseWork = some w →
      n.locks = s.nv.locks ∧ (blank w.op.unit ∨ invalid w.op.unit) ∧ (∀ a, old a &&& new a = old a) ∧
      ((∀ o < 256, new (w.op.unit * 4096 + o) = old (w.op.unit * 4096 + o)) ∨
        ∀ o < 256, new (w.op.unit * 4096 + o) = 0xFF#8) ∧
      ∀ a, a / 4096 ≠ w.op.unit → new a = old a) ∧
    (∀ w pages, s.psc.engine = .programming w pages → ∀ p rest, pages = p :: rest →
      n.locks = s.nv.locks ∧ (p ≠ 0 → blank w.op.unit) ∧
      (p = 0 → if Config.pageBegun s.fresh = true then invalid w.op.unit else n = s.nv ∧ blank w.op.unit) ∧
      (∀ o < 256,
        let a := w.op.unit * 4096 + p.val * 256 + o
        let wanted := byteAt (imagePage w.image p.val) o
        old a &&& new a = new a ∧ old a &&& wanted &&& new a = old a &&& wanted) ∧
      ∀ a, a / 256 ≠ w.op.unit * 16 + p.val → new a = old a) ∧
    (∀ w pages, s.psc.engine.programWork = some (w, pages) → s.psc.engine ≠ .programming w pages →
      n = s.nv ∧ blank w.op.unit) ∧
    (∀ op i, s.psc.engine = .fusing op i →
      n.mem = s.nv.mem ∧ ∃ blown : Bool, n.locks = s.nv.locks.set i (s.nv.locks[i] || blown)) ∧
    (s.psc.engine = .idle ∨ (∃ op, s.psc.engine = .reading op) → n = s.nv)) ∧
  ∀ (s : State) (straps : Straps),
    let begun (t : State) (c : Cause) (pins : Pins) : Prop :=
      t.pins = pins ∧ t.suc = Suc.begun c ∧ t.hpt = Hpt.reset (baudOf pins.straps) ∧
      t.psc.uid = s.nv.id ∧ ∀ i : Fin 32, (t.slot i).isLocked = t.nv.locks[i]
    let held (t : State) (fresh : Bool) (pins : Pins) : Prop :=
      t.pins = pins ∧ t.suc.phase = .starting ∧ t.suc.stage = .over ∧ t.suc.fresh = fresh ∧
      t.hpt = Hpt.reset s.hpt.baud
    let blocks (t : State) : Prop :=
      t.gtb = Gtb.reset ∧ (∀ g, t.account g = ⟨0, false, false⟩) ∧ (∀ i, t.target i = TargetEntry.reset) ∧
      (∀ l, t.lane l = Lane.reset) ∧ t.sau = Sau.reset ∧ (∀ n, t.loop n = LoopEntry.reset) ∧
      t.psc.queue = [] ∧ t.psc.engine = .idle ∧ t.psc.guard = false ∧
      t.nv = s.nv.abandoned s.psc.engine s.fresh ∧ t.pending = s.pending
    (∃ t, exec (.powerOn straps) s = .next t ∧ blocks t ∧
      (s.pins.resetn = true → begun t .power { s.pins with power := true, straps := straps }) ∧
      (s.pins.resetn = false → held t true { s.pins with power := true, straps := straps })) ∧
    (∃ t, exec .powerFail s = .next t ∧ blocks t ∧ held t true { s.pins with power := false }) ∧
    (∃ t, exec .resetnAssert s = .next t ∧ blocks t ∧ held t s.suc.fresh { s.pins with resetn := false }) ∧
    (s.pins.resetn = false →
      (s.pins.power = true → ∃ t, exec (.resetnRelease straps) s = .next t ∧ blocks t ∧
        begun t (if s.suc.fresh then .power else .pin) { s.pins with resetn := true, straps := straps }) ∧
      (s.pins.power = false →
        exec (.resetnRelease straps) s = .next { s with pins := { s.pins with resetn := true, straps := straps } })) ∧
    (s.pins.resetn = true → exec (.resetnRelease straps) s = .next s)

/-- The end of the rebuild (R134, R136): each slot's state by its header and payload, every guard set, `locked` from
the fuse row, `frozen` clear, the identifier read; nothing else changes but the step of the start. -/
def Obligations.RebuildClassifiesSlots : Prop :=
  ∀ s : State, s.live = true → s.suc.stage = .rebuild →
    ∃ t : State, exec .directoryRebuild s = .next t.arbitrated ∧
      t = { s with psc := { s.psc with dir := t.psc.dir, frozen := false, uid := s.nv.id }
                   suc := { s.suc with stage := .setupRead } } ∧
      ∀ i : Fin 32,
        let l := Memory.readAll s.nv.mem (i.val * 4096) 32
        let n := (halfAt l 8).toNat
        let good : Prop := valAt l 0 = 0x6C2E93D5#32 ∧ byteAt l 4 = 1#8 ∧ 8 ≤ n ∧ n ≤ 4064 ∧
          crc32 (Memory.readAll s.nv.mem (i.val * 4096 + 32) n) = valAt l 12
        (t.slot i).isProtected = true ∧ (t.slot i).isLocked = s.nv.locks[i] ∧
        ((∀ b ∈ l, b = 0xFF#8) → (t.slot i).state = .blank) ∧
        ((∃ b ∈ l, b ≠ 0xFF#8) → good → (t.slot i).state = .valid ⟨labelAt l 16, halfAt l 6, halfAt l 8⟩) ∧
        ((∃ b ∈ l, b ≠ 0xFF#8) → ¬ good → (t.slot i).state = .invalid)

/-- The read of the setup area (R180): which content is BLANK, which INVALID, which is applied; the checks of the body,
field by field and between fields; the record a SETUP.SAVE captures (R175, 10.5.2); and what an applied record leaves
(R181). -/
def Obligations.SetupRecordChecksAndApply : Prop :=
  (∀ body : List Byte,
    let lane (l : Fin 4) := laneSettingsOf (rawLaneAt body (5 * l.val))
    let target (t : Fin 16) := targetCfgOf (rawTargetAt body (20 + 9 * t.val))
    let at' (n : Fin 4) : Nat := 170 + 107 * n.val
    let loop (n : Fin 4) := loopCfgOf (rawLoopAt body (at' n + 1) (byteAt body (at' n + 42)).toNat)
    ((setupOf body).isSome = true ↔
      (∀ l, (lane l).isSome = true) ∧ (∀ t, (target t).isSome = true) ∧
      (∀ k : Fin 2, (byteAt body (164 + 3 * k.val)).toNat ≤ 2 ∧ (halfAt body (165 + 3 * k.val)).toNat ≤ 6000) ∧
      (∀ n, (byteAt body (at' n)).toNat ≤ 1 ∧ (byteAt body (at' n + 37)).toNat ≤ 1 ∧
        (byteAt body (at' n) = 1#8 → (loop n).isSome = true)) ∧
      (byteAt body 598).toNat ≤ 1 ∧
      (byteAt body 598 = 1#8 → (byteAt body 599).toNat ≤ 31 ∧ (byteAt body 600).toNat ≤ 1)) ∧
    ∀ x, setupOf body = some x →
      (∀ l : Fin 4, x.lanes[l.val]? = lane l) ∧ x.lanes.length = 4 ∧
      (∀ t : Fin 16, x.targets[t.val]? = target t) ∧ x.targets.length = 16 ∧
      (∀ k : Fin 2, ∃ e, x.sync[k.val]? = some (e, halfAt body (165 + 3 * k.val)) ∧
        EdgeSel.byte e = byteAt body (164 + 3 * k.val)) ∧
      (∀ n : Fin 4, ∃ configured autostart c, x.loops[n.val]? = some (configured, autostart, c) ∧
        flagByte configured = byteAt body (at' n) ∧ flagByte autostart = byteAt body (at' n + 37) ∧
        (configured = true → loop n = some c)) ∧
      (byteAt body 598 = 0#8 → x.designation = none) ∧
      (byteAt body 598 = 1#8 → ∃ d : Designation, x.designation = some d ∧ natByte d.slot.val = byteAt body 599 ∧
        lineByte d.line = byteAt body 600 ∧ d.skip = byteAt body 601)) ∧
  (∀ x : Setup, x.lanes.length = 4 →
    (x.consistent = true ↔
      (∀ c ∈ x.targets, c.enabled = true → ∀ k, x.lanes[c.lane.val]? = some k → c.fitsKind k = true) ∧
      x.targets.Pairwise fun c d =>
        c.enabled = true → d.enabled = true → c.lane = d.lane → c.address ≠ d.address)) ∧
  (∀ s : State,
    setupImage s =
      valBytes 0x9B47D1E2#32 ++ [1#8, 0#8] ++ natHalf (setupBody s).length ++ valBytes (crc32 (setupBody s)) ++
        [0#8, 0#8, 0#8, 0#8] ++ setupBody s ∧
    setupBody s =
      (upTo 4).flatMap (fun l => (s.lane l).settings.bytes) ++ (upTo 16).flatMap (fun t => (s.target t).cfg.bytes) ++
      ((s.line .sync0).edge.byte :: halfBytes (s.line .sync0).window) ++
      ((s.line .sync1).edge.byte :: halfBytes (s.line .sync1).window) ++
      (upTo 4).flatMap (fun n =>
        if (s.loop n).configured = true then loopBlock true (s.loop n).cfg
        else List.replicate 37 0#8 ++ [flagByte (s.loop n).cfg.autostart] ++ List.replicate 69 0#8) ++
      (match s.suc.designation with
        | none => [0#8, 0#8, 0#8, 0#8]
        | some d => [1#8, natByte d.slot.val, lineByte d.line, d.skip])) ∧
  (∀ m : List Host.Cell,
    let header := Memory.readAll m 131072 16
    let body := Memory.readAll m 131088 602
    let good : Prop := valAt header 0 = 0x9B47D1E2#32 ∧ byteAt header 4 = 1#8 ∧ halfAt header 6 = 602#16 ∧
      crc32 body = valAt header 8
    ((∀ b ∈ header, b = 0xFF#8) → readSetup m = (.blank, none)) ∧
    ((∃ b ∈ header, b ≠ 0xFF#8) → ¬ good → readSetup m = (.invalid, none)) ∧
    ((∃ b ∈ header, b ≠ 0xFF#8) → good →
      (setupOf body = none → readSetup m = (.invalid, none)) ∧
      ∀ x, setupOf body = some x →
        (x.consistent = false → readSetup m = (.invalid, none)) ∧
        (x.consistent = true → readSetup m = (.applied, some x)))) ∧
  ∀ (s : State) (x : Setup),
    let t := s.applySetup x
    (∀ l, t.lane l = { s.lane l with settings := x.lanes.getD l.val (s.lane l).settings }) ∧
    (∀ i, t.target i = ⟨x.targets.getD i.val (s.target i).cfg, none⟩) ∧
    (∀ e w, x.sync[0]? = some (e, w) → t.line .sync0 = { s.line .sync0 with edge := e, window := w }) ∧
    (∀ e w, x.sync[1]? = some (e, w) → t.line .sync1 = { s.line .sync1 with edge := e, window := w }) ∧
    (∀ (n : Fin 4) (a : Bool) (c : LoopCfg),
      (x.loops[n.val]? = some (true, a, c) →
        t.loop n = { s.loop n with configured := true, cfg := { c with autostart := a } }) ∧
      (x.loops[n.val]? = some (false, a, c) →
        t.loop n = { s.loop n with cfg := { (s.loop n).cfg with autostart := a } })) ∧
    t.suc = { s.suc with designation := x.designation } ∧ t.sau.arm = s.sau.arm ∧ t.gtb = s.gtb ∧ t.lsq = s.lsq ∧
    t.psc = s.psc ∧ t.hpt = s.hpt ∧ t.nv = s.nv

/-- The last steps of a start (R180 to R184): the setup status, the loops marked for autostart, then the internal load
or the end of the sequence, with its report, N.START and RUNNING. After an internal load the last step comes in the same
step or apart from it, with group 0 ARMED in STARTING (R188), and then on an empty queue: the model's choice (log entry
36). Where N.START joins among the notices of the same step, and whether a free transmitter takes one at once, are free
values (log entries 38 and 5). The layout of N.START is the model's
(log entry 15). -/
def Obligations.StartSequenceEnds : Prop :=
  ∀ s : State,
    let ended (t : State) (r : StartResult) : State :=
      State.notify
        { t with
          suc := { t.suc with
            report := { t.suc.report with result := some r }, phase := .running, stage := .over } }
        0x05#8 (reportBytes { t.suc.report with result := some r })
    let noted (t : State) (x : SetupStatus) : State :=
      { t with suc := { t.suc with setup := x, report := { t.suc.report with setup := x } } }
    (s.live = true → s.suc.stage = .setupRead →
      (∀ x, readSetup s.nv.mem = (.applied, some x) →
        exec .setupAreaRead s =
          .next (((((upTo 4).foldl State.autostart ((noted s .applied).applySetup x)).startLoad).settleLanes).arbitrated)) ∧
      (∀ x, readSetup s.nv.mem = (x, none) →
        exec .setupAreaRead s =
          .next (((((upTo 4).foldl State.autostart (noted s x)).startLoad).settleLanes).arbitrated))) ∧
    (∀ n : Fin 4,
      let reported (t : State) (a : Autostart) : State :=
        { t with suc := { t.suc with
          report := { t.suc.report with autostart := t.suc.report.autostart.set n (some a) } } }
      ((s.loop n).cfg.autostart = false → s.autostart n = reported s .notMarked) ∧
      ((s.loop n).cfg.autostart = true →
        (s.startRefusal n = none → s.autostart n = reported (s.startLoop n) .started) ∧
        ∀ st, s.startRefusal n = some st → s.autostart n = reported s (.refused st))) ∧
    ((s.suc.setup ≠ .applied ∨ s.suc.designation = none) → s.startLoad = ended s .none) ∧
    (∀ r, s.live = true → s.pending = [] → s.suc.stage = .due r → step s = .next (ended s r).arbitrated) ∧
    (∀ d, s.suc.setup = .applied → s.suc.designation = some d → (s.group 0).state = .empty →
      s.startLoad =
        State.accept { s.setGroup 0 { s.group 0 with state := .loading } with suc := { s.suc with stage := .load } }
          (.load d.slot 0) none) ∧
    ∀ (op : StoreOp) (i : Fin 32) (d : Designation), s.live = true → s.suc.stage = .load → op.kind = .load i 0 →
      op.origin = none → s.psc.engine = .reading op → s.suc.designation = some d → (s.group 0).state = .loading →
      let t := s.loadEnd op i 0
      let ends (x : State) (r : StartResult) : Prop :=
        exec .imageReadComplete s = .next ((ended x r).engineFree).arbitrated ∨
        exec .imageReadComplete s =
          .next (State.engineFree { x with suc := { x.suc with stage := .due r } }).arbitrated
      (classifySlot s.nv.mem i = .blank → ends t .slotBlank) ∧
      (classifySlot s.nv.mem i = .invalid → ends t .slotInvalid) ∧
      ∀ info, classifySlot s.nv.mem i = .valid info →
        (imageRecords s.nv.mem i info = none → ends t .slotInvalid) ∧
        ∀ rs, imageRecords s.nv.mem i info = some rs → rs.length ≤ s.gtb.free →
          ends ((t.setGroup 0 { t.group 0 with state := .armed }).setArm
            (s.sau.arm ++ [⟨0, d.line, d.skip, d.skip, .once⟩])) (.armed d info.count info.label)

/-- PART.RESET SEQUENCER (R28, R76, R100, R172, R186): the lanes cut, the store's saves and loads cancelled and
answered ABORTED oldest first, the groups and the pool as after reset, no arm list and no window; the targets, the
lanes' settings, the lock bits and the start-up state are kept. That the N.DONE of an aborted launch is held back behind the
reset's reply like a CUT one is the model's choice (log entry 41). That the engine's choice comes before the groups' part
is the model's choice (log entry 30). -/
def Obligations.SequencerResetEmptiesGroups : Prop :=
  ∀ s : State,
    let t := s.cutLanes.cancelStore.resetGroups
    let kept := s.psc.queue.filter fun op => !op.cancellable
    let aborted := (s.psc.cancelled.filterMap (·.origin)).foldl
      (fun h tag => h.answer tag [Status.aborted.byte] false) s.cutLanes.hpt
    (∀ h, s.admits h →
      exec (.partResetSequencer h) s =
        .next (((s.accepted h 0x72#8).cutLanes.cancelStore.resetGroups).answer h.tag .ok []).arbitrated) ∧
    t.gtb = Gtb.reset ∧ (∀ g, t.account g = ⟨0, false, false⟩) ∧ t.sau.arm = [] ∧
    (∀ line, t.line line = { s.line line with opened := none }) ∧
    (∀ l, t.lane l = ⟨(s.lane l).settings, [], none, (s.cutLanes.lane l).bus⟩) ∧ t.tgt = s.tgt ∧ t.tlu = s.cutLanes.tlu ∧ t.suc = s.suc ∧
    t.pins = s.pins ∧ t.nv.locks = s.nv.locks ∧
    (∀ op : StoreOp, op.cancellable = true ↔
      (∃ g i label, op.kind = .save g i label) ∨ ∃ i g, op.kind = .load i g) ∧
    (s.psc.engine.loading = none → s.psc.cancelled = s.psc.queue.filter StoreOp.cancellable) ∧
    (∀ op, s.psc.engine.loading = some op →
      s.psc.cancelled.Perm (op :: s.psc.queue.filter StoreOp.cancellable) ∧
      (s.psc.queue.Pairwise (fun x y => x.seq < y.seq) → (∀ x ∈ s.psc.queue, x.seq ≠ op.seq) →
        s.psc.cancelled.Pairwise (fun x y => x.seq < y.seq))) ∧
    ((∃ w, s.psc.engine = .erasing w) ∨ (∃ w pages, s.psc.engine = .programming w pages) ∨
        (∃ op i, s.psc.engine = .fusing op i) →
      t.psc = { s.psc with queue := kept } ∧ t.nv = s.nv ∧ t.hpt = aborted) ∧
    (∀ op x i g, s.psc.engine = .readingUnderSuspend op x → op.kind = .load i g →
      t.psc = { s.psc with
        queue := kept, guard := true, suspending := false
        engine := match x with | .erase w => .erasing w | .program w pages => .programming w pages } ∧
      t.nv = s.nv ∧ t.hpt = aborted) ∧
    (∀ op i g, s.psc.engine = .reading op → op.kind = .load i g → kept = [] →
      t.psc = { s.psc with queue := [], engine := .idle } ∧ t.nv = s.nv ∧ t.hpt = aborted)

end Statements
end

