-- ==== Sys2Proof/Laws/Bytes.lean ====
section
/-! SUPPORT. Items on the wire read back as they were written (R200), and numbers in range read back from their byte. -/

namespace Sys2Proof.Machine

/-! ## Items -/

theorem byteAt_append_right (l r : List Byte) (o : Nat) : byteAt (l ++ r) (l.length + o) = byteAt r o := by
  simp [byteAt, List.getD_eq_getElem?_getD, List.getElem?_append_right]

theorem halfAt_append_right (l r : List Byte) (o : Nat) : halfAt (l ++ r) (l.length + o) = halfAt r o := by
  simp only [halfAt, Nat.add_assoc, byteAt_append_right]

theorem valAt_append_right (l r : List Byte) (o : Nat) : valAt (l ++ r) (l.length + o) = valAt r o := by
  simp only [valAt, Nat.add_assoc, halfAt_append_right]

/-- A two-byte item reads back. -/
theorem halfAt_halfBytes (x : Half) (r : List Byte) : halfAt (halfBytes x ++ r) 0 = x := by
  simp only [halfAt, halfBytes, byteAt]
  apply BitVec.eq_of_getLsbD_eq
  intro i hi
  simp
  by_cases h : i < 8
  · simp [h, hi]
  · simp [h, hi, show 8 + (i - 8) = i by omega]
    simp [show i - 8 < 16 by omega, show i - 8 < 8 by omega]

/-- A four-byte item reads back. -/
theorem valAt_valBytes (x : Val) (r : List Byte) : valAt (valBytes x ++ r) 0 = x := by
  simp only [valAt, halfAt, valBytes, byteAt]
  apply BitVec.eq_of_getLsbD_eq
  intro i hi
  simp
  rcases Nat.lt_or_ge i 8 with h | h
  · simp [h, hi, show i < 16 by omega]
  rcases Nat.lt_or_ge i 16 with h2 | h2
  · simp [h2, hi, show ¬ i < 8 by omega, show 8 + (i - 8) = i by omega, show i - 8 < 8 by omega, show i - 8 < 16 by omega]
  rcases Nat.lt_or_ge i 24 with h3 | h3
  · simp [hi, show ¬ i < 16 by omega, show 16 + (i - 16) = i by omega, show i - 16 < 8 by omega, show ¬ i < 8 by omega,
      show i - 16 < 32 by omega]
  · simp [hi, show ¬ i < 16 by omega, show ¬ i - 16 < 8 by omega, show 24 + (i - 16 - 8) = i by omega,
      show i - 16 - 8 < 8 by omega, show i - 16 < 16 by omega, show ¬ i < 8 by omega, show i - 16 < 32 by omega,
      show i - 16 - 8 < 16 by omega]

/-- The four bytes of an item are those at its offset, least significant first (R200). -/
theorem valBytes_valAt (l : List Byte) (o : Nat) :
    valBytes (valAt l o) = [byteAt l o, byteAt l (o + 1), byteAt l (o + 2), byteAt l (o + 3)] := by
  have key : ∀ a b c d : Byte,
      valBytes ((a.setWidth 16 ||| b.setWidth 16 <<< 8).setWidth 32 |||
        (c.setWidth 16 ||| d.setWidth 16 <<< 8).setWidth 32 <<< 16) = [a, b, c, d] := by
    intro a b c d
    simp only [valBytes, List.cons.injEq, and_true]
    refine ⟨?_, ?_, ?_, ?_⟩ <;> ext i hi
    · simp
    · simp [hi, show 8 + i < 16 by omega, show 8 + i < 32 by omega]
    · simp [hi, BitVec.getLsbD_of_ge a (16 + i) (by omega), show ¬ 16 + i < 16 by omega, show 16 + i < 32 by omega,
        show 16 + i - 16 = i by omega, show i < 16 by omega, show i < 32 by omega]
    · simp [hi, BitVec.getLsbD_of_ge a (24 + i) (by omega), show 24 + i < 32 by omega, show ¬ 24 + i < 16 by omega,
        show 24 + i - 16 = 8 + i by omega, show 8 + i < 16 by omega]
  exact key _ _ _ _

@[simp] theorem length_halfBytes (x : Half) : (halfBytes x).length = 2 := rfl
@[simp] theorem length_valBytes (x : Val) : (valBytes x).length = 4 := rfl

/-- Values read back one by one. -/
theorem valuesAt_flatMap (l r : List Byte) (vs : List Val) :
    valuesAt (l ++ vs.flatMap valBytes ++ r) l.length vs.length = vs := by
  induction vs generalizing l with
  | nil => rfl
  | cons v vs ih =>
    have h := ih (l ++ valBytes v)
    simp only [List.length_append, length_valBytes, List.append_assoc] at h
    simp only [List.flatMap_cons, List.length_cons, valuesAt, List.append_assoc]
    rw [h]
    congr 1
    have := valAt_append_right l (valBytes v ++ (vs.flatMap valBytes ++ r)) 0
    rw [Nat.add_zero] at this
    rw [this, valAt_valBytes]

/-! ## Numbers in range -/

@[simp] theorem inRange_natByte_8 (g : Fin 8) : inRange 8 (natByte g.val) = some g := by revert g; decide
@[simp] theorem inRange_natByte_16 (t : Fin 16) : inRange 16 (natByte t.val) = some t := by revert t; decide
@[simp] theorem inRange_natByte_4 (l : Fin 4) : inRange 4 (natByte l.val) = some l := by revert l; decide
@[simp] theorem inRange_natByte_32 (i : Fin 32) : inRange 32 (natByte i.val) = some i := by revert i; decide

theorem inRange_none {n : Nat} {b : Byte} (h : n ≤ b.toNat) : inRange n b = none := by simp [inRange, h]

@[simp] theorem lineOf_lineByte (l : Line) : lineOf (lineByte l) = some l := by cases l <;> rfl
@[simp] theorem edgeOf_byte (e : EdgeSel) : edgeOf e.byte = some e := by cases e <;> rfl
@[simp] theorem modeOf_byte (m : ArmMode) : modeOf m.byte = some m := by cases m <;> rfl
@[simp] theorem flagOf_flagByte (b : Bool) : flagOf (flagByte b) = some b := by cases b <;> rfl

end Sys2Proof.Machine
end

