-- ==== Sys2Proof/Laws/State.lean ====
section
/-! SUPPORT. One lemma per field and update: what each update of the state leaves as it was, and what an entry reads
after an entry is replaced. -/

namespace Sys2Proof.Machine.State

variable (s : State)

/-! ### setGroup changes `gtb` alone -/

@[simp] theorem setGroup_pins (g : Fin 8) (e : GroupEntry) : (s.setGroup g e).pins = s.pins := rfl
@[simp] theorem setGroup_hpt (g : Fin 8) (e : GroupEntry) : (s.setGroup g e).hpt = s.hpt := rfl
@[simp] theorem setGroup_lsq (g : Fin 8) (e : GroupEntry) : (s.setGroup g e).lsq = s.lsq := rfl
@[simp] theorem setGroup_tgt (g : Fin 8) (e : GroupEntry) : (s.setGroup g e).tgt = s.tgt := rfl
@[simp] theorem setGroup_lanes (g : Fin 8) (e : GroupEntry) : (s.setGroup g e).lanes = s.lanes := rfl
@[simp] theorem setGroup_sau (g : Fin 8) (e : GroupEntry) : (s.setGroup g e).sau = s.sau := rfl
@[simp] theorem setGroup_tlu (g : Fin 8) (e : GroupEntry) : (s.setGroup g e).tlu = s.tlu := rfl
@[simp] theorem setGroup_psc (g : Fin 8) (e : GroupEntry) : (s.setGroup g e).psc = s.psc := rfl
@[simp] theorem setGroup_suc (g : Fin 8) (e : GroupEntry) : (s.setGroup g e).suc = s.suc := rfl
@[simp] theorem setGroup_nv (g : Fin 8) (e : GroupEntry) : (s.setGroup g e).nv = s.nv := rfl
@[simp] theorem setGroup_fresh (g : Fin 8) (e : GroupEntry) : (s.setGroup g e).fresh = s.fresh := rfl
@[simp] theorem setGroup_raised (g : Fin 8) (e : GroupEntry) : (s.setGroup g e).raised = s.raised := rfl
@[simp] theorem setGroup_pending (g : Fin 8) (e : GroupEntry) : (s.setGroup g e).pending = s.pending := rfl

/-! ### setRecords changes `gtb` alone -/

@[simp] theorem setRecords_pins (g : Fin 8) (l : List Record) : (s.setRecords g l).pins = s.pins := rfl
@[simp] theorem setRecords_hpt (g : Fin 8) (l : List Record) : (s.setRecords g l).hpt = s.hpt := rfl
@[simp] theorem setRecords_lsq (g : Fin 8) (l : List Record) : (s.setRecords g l).lsq = s.lsq := rfl
@[simp] theorem setRecords_tgt (g : Fin 8) (l : List Record) : (s.setRecords g l).tgt = s.tgt := rfl
@[simp] theorem setRecords_lanes (g : Fin 8) (l : List Record) : (s.setRecords g l).lanes = s.lanes := rfl
@[simp] theorem setRecords_sau (g : Fin 8) (l : List Record) : (s.setRecords g l).sau = s.sau := rfl
@[simp] theorem setRecords_tlu (g : Fin 8) (l : List Record) : (s.setRecords g l).tlu = s.tlu := rfl
@[simp] theorem setRecords_psc (g : Fin 8) (l : List Record) : (s.setRecords g l).psc = s.psc := rfl
@[simp] theorem setRecords_suc (g : Fin 8) (l : List Record) : (s.setRecords g l).suc = s.suc := rfl
@[simp] theorem setRecords_nv (g : Fin 8) (l : List Record) : (s.setRecords g l).nv = s.nv := rfl
@[simp] theorem setRecords_fresh (g : Fin 8) (l : List Record) : (s.setRecords g l).fresh = s.fresh := rfl
@[simp] theorem setRecords_raised (g : Fin 8) (l : List Record) : (s.setRecords g l).raised = s.raised := rfl
@[simp] theorem setRecords_pending (g : Fin 8) (l : List Record) : (s.setRecords g l).pending = s.pending := rfl

/-! ### setAccount changes `lsq` alone -/

@[simp] theorem setAccount_pins (g : Fin 8) (a : Account) : (s.setAccount g a).pins = s.pins := rfl
@[simp] theorem setAccount_hpt (g : Fin 8) (a : Account) : (s.setAccount g a).hpt = s.hpt := rfl
@[simp] theorem setAccount_gtb (g : Fin 8) (a : Account) : (s.setAccount g a).gtb = s.gtb := rfl
@[simp] theorem setAccount_tgt (g : Fin 8) (a : Account) : (s.setAccount g a).tgt = s.tgt := rfl
@[simp] theorem setAccount_lanes (g : Fin 8) (a : Account) : (s.setAccount g a).lanes = s.lanes := rfl
@[simp] theorem setAccount_sau (g : Fin 8) (a : Account) : (s.setAccount g a).sau = s.sau := rfl
@[simp] theorem setAccount_tlu (g : Fin 8) (a : Account) : (s.setAccount g a).tlu = s.tlu := rfl
@[simp] theorem setAccount_psc (g : Fin 8) (a : Account) : (s.setAccount g a).psc = s.psc := rfl
@[simp] theorem setAccount_suc (g : Fin 8) (a : Account) : (s.setAccount g a).suc = s.suc := rfl
@[simp] theorem setAccount_nv (g : Fin 8) (a : Account) : (s.setAccount g a).nv = s.nv := rfl
@[simp] theorem setAccount_fresh (g : Fin 8) (a : Account) : (s.setAccount g a).fresh = s.fresh := rfl
@[simp] theorem setAccount_raised (g : Fin 8) (a : Account) : (s.setAccount g a).raised = s.raised := rfl
@[simp] theorem setAccount_pending (g : Fin 8) (a : Account) : (s.setAccount g a).pending = s.pending := rfl

/-! ### setTarget changes `tgt` alone -/

@[simp] theorem setTarget_pins (t : Fin 16) (e : TargetEntry) : (s.setTarget t e).pins = s.pins := rfl
@[simp] theorem setTarget_hpt (t : Fin 16) (e : TargetEntry) : (s.setTarget t e).hpt = s.hpt := rfl
@[simp] theorem setTarget_gtb (t : Fin 16) (e : TargetEntry) : (s.setTarget t e).gtb = s.gtb := rfl
@[simp] theorem setTarget_lsq (t : Fin 16) (e : TargetEntry) : (s.setTarget t e).lsq = s.lsq := rfl
@[simp] theorem setTarget_lanes (t : Fin 16) (e : TargetEntry) : (s.setTarget t e).lanes = s.lanes := rfl
@[simp] theorem setTarget_sau (t : Fin 16) (e : TargetEntry) : (s.setTarget t e).sau = s.sau := rfl
@[simp] theorem setTarget_tlu (t : Fin 16) (e : TargetEntry) : (s.setTarget t e).tlu = s.tlu := rfl
@[simp] theorem setTarget_psc (t : Fin 16) (e : TargetEntry) : (s.setTarget t e).psc = s.psc := rfl
@[simp] theorem setTarget_suc (t : Fin 16) (e : TargetEntry) : (s.setTarget t e).suc = s.suc := rfl
@[simp] theorem setTarget_nv (t : Fin 16) (e : TargetEntry) : (s.setTarget t e).nv = s.nv := rfl
@[simp] theorem setTarget_fresh (t : Fin 16) (e : TargetEntry) : (s.setTarget t e).fresh = s.fresh := rfl
@[simp] theorem setTarget_raised (t : Fin 16) (e : TargetEntry) : (s.setTarget t e).raised = s.raised := rfl
@[simp] theorem setTarget_pending (t : Fin 16) (e : TargetEntry) : (s.setTarget t e).pending = s.pending := rfl

/-! ### setLane changes `lanes` alone -/

@[simp] theorem setLane_pins (l : Fin 4) (x : Lane) : (s.setLane l x).pins = s.pins := rfl
@[simp] theorem setLane_hpt (l : Fin 4) (x : Lane) : (s.setLane l x).hpt = s.hpt := rfl
@[simp] theorem setLane_gtb (l : Fin 4) (x : Lane) : (s.setLane l x).gtb = s.gtb := rfl
@[simp] theorem setLane_lsq (l : Fin 4) (x : Lane) : (s.setLane l x).lsq = s.lsq := rfl
@[simp] theorem setLane_tgt (l : Fin 4) (x : Lane) : (s.setLane l x).tgt = s.tgt := rfl
@[simp] theorem setLane_sau (l : Fin 4) (x : Lane) : (s.setLane l x).sau = s.sau := rfl
@[simp] theorem setLane_tlu (l : Fin 4) (x : Lane) : (s.setLane l x).tlu = s.tlu := rfl
@[simp] theorem setLane_psc (l : Fin 4) (x : Lane) : (s.setLane l x).psc = s.psc := rfl
@[simp] theorem setLane_suc (l : Fin 4) (x : Lane) : (s.setLane l x).suc = s.suc := rfl
@[simp] theorem setLane_nv (l : Fin 4) (x : Lane) : (s.setLane l x).nv = s.nv := rfl
@[simp] theorem setLane_fresh (l : Fin 4) (x : Lane) : (s.setLane l x).fresh = s.fresh := rfl
@[simp] theorem setLane_raised (l : Fin 4) (x : Lane) : (s.setLane l x).raised = s.raised := rfl
@[simp] theorem setLane_pending (l : Fin 4) (x : Lane) : (s.setLane l x).pending = s.pending := rfl

/-! ### setFlight changes `lanes` alone -/

@[simp] theorem setFlight_pins (l : Fin 4) (f : Option Flight) : (s.setFlight l f).pins = s.pins := rfl
@[simp] theorem setFlight_hpt (l : Fin 4) (f : Option Flight) : (s.setFlight l f).hpt = s.hpt := rfl
@[simp] theorem setFlight_gtb (l : Fin 4) (f : Option Flight) : (s.setFlight l f).gtb = s.gtb := rfl
@[simp] theorem setFlight_lsq (l : Fin 4) (f : Option Flight) : (s.setFlight l f).lsq = s.lsq := rfl
@[simp] theorem setFlight_tgt (l : Fin 4) (f : Option Flight) : (s.setFlight l f).tgt = s.tgt := rfl
@[simp] theorem setFlight_sau (l : Fin 4) (f : Option Flight) : (s.setFlight l f).sau = s.sau := rfl
@[simp] theorem setFlight_tlu (l : Fin 4) (f : Option Flight) : (s.setFlight l f).tlu = s.tlu := rfl
@[simp] theorem setFlight_psc (l : Fin 4) (f : Option Flight) : (s.setFlight l f).psc = s.psc := rfl
@[simp] theorem setFlight_suc (l : Fin 4) (f : Option Flight) : (s.setFlight l f).suc = s.suc := rfl
@[simp] theorem setFlight_nv (l : Fin 4) (f : Option Flight) : (s.setFlight l f).nv = s.nv := rfl
@[simp] theorem setFlight_fresh (l : Fin 4) (f : Option Flight) : (s.setFlight l f).fresh = s.fresh := rfl
@[simp] theorem setFlight_raised (l : Fin 4) (f : Option Flight) : (s.setFlight l f).raised = s.raised := rfl
@[simp] theorem setFlight_pending (l : Fin 4) (f : Option Flight) : (s.setFlight l f).pending = s.pending := rfl

/-! ### appendJob changes `lanes` alone -/

@[simp] theorem appendJob_pins (l : Fin 4) (j : Job) : (s.appendJob l j).pins = s.pins := rfl
@[simp] theorem appendJob_hpt (l : Fin 4) (j : Job) : (s.appendJob l j).hpt = s.hpt := rfl
@[simp] theorem appendJob_gtb (l : Fin 4) (j : Job) : (s.appendJob l j).gtb = s.gtb := rfl
@[simp] theorem appendJob_lsq (l : Fin 4) (j : Job) : (s.appendJob l j).lsq = s.lsq := rfl
@[simp] theorem appendJob_tgt (l : Fin 4) (j : Job) : (s.appendJob l j).tgt = s.tgt := rfl
@[simp] theorem appendJob_sau (l : Fin 4) (j : Job) : (s.appendJob l j).sau = s.sau := rfl
@[simp] theorem appendJob_tlu (l : Fin 4) (j : Job) : (s.appendJob l j).tlu = s.tlu := rfl
@[simp] theorem appendJob_psc (l : Fin 4) (j : Job) : (s.appendJob l j).psc = s.psc := rfl
@[simp] theorem appendJob_suc (l : Fin 4) (j : Job) : (s.appendJob l j).suc = s.suc := rfl
@[simp] theorem appendJob_nv (l : Fin 4) (j : Job) : (s.appendJob l j).nv = s.nv := rfl
@[simp] theorem appendJob_fresh (l : Fin 4) (j : Job) : (s.appendJob l j).fresh = s.fresh := rfl
@[simp] theorem appendJob_raised (l : Fin 4) (j : Job) : (s.appendJob l j).raised = s.raised := rfl
@[simp] theorem appendJob_pending (l : Fin 4) (j : Job) : (s.appendJob l j).pending = s.pending := rfl

/-! ### setLoop changes `tlu` alone -/

@[simp] theorem setLoop_pins (n : Fin 4) (e : LoopEntry) : (s.setLoop n e).pins = s.pins := rfl
@[simp] theorem setLoop_hpt (n : Fin 4) (e : LoopEntry) : (s.setLoop n e).hpt = s.hpt := rfl
@[simp] theorem setLoop_gtb (n : Fin 4) (e : LoopEntry) : (s.setLoop n e).gtb = s.gtb := rfl
@[simp] theorem setLoop_lsq (n : Fin 4) (e : LoopEntry) : (s.setLoop n e).lsq = s.lsq := rfl
@[simp] theorem setLoop_tgt (n : Fin 4) (e : LoopEntry) : (s.setLoop n e).tgt = s.tgt := rfl
@[simp] theorem setLoop_lanes (n : Fin 4) (e : LoopEntry) : (s.setLoop n e).lanes = s.lanes := rfl
@[simp] theorem setLoop_sau (n : Fin 4) (e : LoopEntry) : (s.setLoop n e).sau = s.sau := rfl
@[simp] theorem setLoop_psc (n : Fin 4) (e : LoopEntry) : (s.setLoop n e).psc = s.psc := rfl
@[simp] theorem setLoop_suc (n : Fin 4) (e : LoopEntry) : (s.setLoop n e).suc = s.suc := rfl
@[simp] theorem setLoop_nv (n : Fin 4) (e : LoopEntry) : (s.setLoop n e).nv = s.nv := rfl
@[simp] theorem setLoop_fresh (n : Fin 4) (e : LoopEntry) : (s.setLoop n e).fresh = s.fresh := rfl
@[simp] theorem setLoop_raised (n : Fin 4) (e : LoopEntry) : (s.setLoop n e).raised = s.raised := rfl
@[simp] theorem setLoop_pending (n : Fin 4) (e : LoopEntry) : (s.setLoop n e).pending = s.pending := rfl

/-! ### setArm changes `sau` alone -/

@[simp] theorem setArm_pins (l : List ArmEntry) : (s.setArm l).pins = s.pins := rfl
@[simp] theorem setArm_hpt (l : List ArmEntry) : (s.setArm l).hpt = s.hpt := rfl
@[simp] theorem setArm_gtb (l : List ArmEntry) : (s.setArm l).gtb = s.gtb := rfl
@[simp] theorem setArm_lsq (l : List ArmEntry) : (s.setArm l).lsq = s.lsq := rfl
@[simp] theorem setArm_tgt (l : List ArmEntry) : (s.setArm l).tgt = s.tgt := rfl
@[simp] theorem setArm_lanes (l : List ArmEntry) : (s.setArm l).lanes = s.lanes := rfl
@[simp] theorem setArm_tlu (l : List ArmEntry) : (s.setArm l).tlu = s.tlu := rfl
@[simp] theorem setArm_psc (l : List ArmEntry) : (s.setArm l).psc = s.psc := rfl
@[simp] theorem setArm_suc (l : List ArmEntry) : (s.setArm l).suc = s.suc := rfl
@[simp] theorem setArm_nv (l : List ArmEntry) : (s.setArm l).nv = s.nv := rfl
@[simp] theorem setArm_fresh (l : List ArmEntry) : (s.setArm l).fresh = s.fresh := rfl
@[simp] theorem setArm_raised (l : List ArmEntry) : (s.setArm l).raised = s.raised := rfl
@[simp] theorem setArm_pending (l : List ArmEntry) : (s.setArm l).pending = s.pending := rfl

/-! ### leaveWindows changes `sau` alone -/

@[simp] theorem leaveWindows_pins (g : Fin 8) : (s.leaveWindows g).pins = s.pins := rfl
@[simp] theorem leaveWindows_hpt (g : Fin 8) : (s.leaveWindows g).hpt = s.hpt := rfl
@[simp] theorem leaveWindows_gtb (g : Fin 8) : (s.leaveWindows g).gtb = s.gtb := rfl
@[simp] theorem leaveWindows_lsq (g : Fin 8) : (s.leaveWindows g).lsq = s.lsq := rfl
@[simp] theorem leaveWindows_tgt (g : Fin 8) : (s.leaveWindows g).tgt = s.tgt := rfl
@[simp] theorem leaveWindows_lanes (g : Fin 8) : (s.leaveWindows g).lanes = s.lanes := rfl
@[simp] theorem leaveWindows_tlu (g : Fin 8) : (s.leaveWindows g).tlu = s.tlu := rfl
@[simp] theorem leaveWindows_psc (g : Fin 8) : (s.leaveWindows g).psc = s.psc := rfl
@[simp] theorem leaveWindows_suc (g : Fin 8) : (s.leaveWindows g).suc = s.suc := rfl
@[simp] theorem leaveWindows_nv (g : Fin 8) : (s.leaveWindows g).nv = s.nv := rfl
@[simp] theorem leaveWindows_fresh (g : Fin 8) : (s.leaveWindows g).fresh = s.fresh := rfl
@[simp] theorem leaveWindows_raised (g : Fin 8) : (s.leaveWindows g).raised = s.raised := rfl
@[simp] theorem leaveWindows_pending (g : Fin 8) : (s.leaveWindows g).pending = s.pending := rfl

/-! ### setSlot changes `psc` alone -/

@[simp] theorem setSlot_pins (i : Fin 32) (e : DirEntry) : (s.setSlot i e).pins = s.pins := rfl
@[simp] theorem setSlot_hpt (i : Fin 32) (e : DirEntry) : (s.setSlot i e).hpt = s.hpt := rfl
@[simp] theorem setSlot_gtb (i : Fin 32) (e : DirEntry) : (s.setSlot i e).gtb = s.gtb := rfl
@[simp] theorem setSlot_lsq (i : Fin 32) (e : DirEntry) : (s.setSlot i e).lsq = s.lsq := rfl
@[simp] theorem setSlot_tgt (i : Fin 32) (e : DirEntry) : (s.setSlot i e).tgt = s.tgt := rfl
@[simp] theorem setSlot_lanes (i : Fin 32) (e : DirEntry) : (s.setSlot i e).lanes = s.lanes := rfl
@[simp] theorem setSlot_sau (i : Fin 32) (e : DirEntry) : (s.setSlot i e).sau = s.sau := rfl
@[simp] theorem setSlot_tlu (i : Fin 32) (e : DirEntry) : (s.setSlot i e).tlu = s.tlu := rfl
@[simp] theorem setSlot_suc (i : Fin 32) (e : DirEntry) : (s.setSlot i e).suc = s.suc := rfl
@[simp] theorem setSlot_nv (i : Fin 32) (e : DirEntry) : (s.setSlot i e).nv = s.nv := rfl
@[simp] theorem setSlot_fresh (i : Fin 32) (e : DirEntry) : (s.setSlot i e).fresh = s.fresh := rfl
@[simp] theorem setSlot_raised (i : Fin 32) (e : DirEntry) : (s.setSlot i e).raised = s.raised := rfl
@[simp] theorem setSlot_pending (i : Fin 32) (e : DirEntry) : (s.setSlot i e).pending = s.pending := rfl

/-! ### setSlotState changes `psc` alone -/

@[simp] theorem setSlotState_pins (i : Fin 32) (x : SlotState) : (s.setSlotState i x).pins = s.pins := rfl
@[simp] theorem setSlotState_hpt (i : Fin 32) (x : SlotState) : (s.setSlotState i x).hpt = s.hpt := rfl
@[simp] theorem setSlotState_gtb (i : Fin 32) (x : SlotState) : (s.setSlotState i x).gtb = s.gtb := rfl
@[simp] theorem setSlotState_lsq (i : Fin 32) (x : SlotState) : (s.setSlotState i x).lsq = s.lsq := rfl
@[simp] theorem setSlotState_tgt (i : Fin 32) (x : SlotState) : (s.setSlotState i x).tgt = s.tgt := rfl
@[simp] theorem setSlotState_lanes (i : Fin 32) (x : SlotState) : (s.setSlotState i x).lanes = s.lanes := rfl
@[simp] theorem setSlotState_sau (i : Fin 32) (x : SlotState) : (s.setSlotState i x).sau = s.sau := rfl
@[simp] theorem setSlotState_tlu (i : Fin 32) (x : SlotState) : (s.setSlotState i x).tlu = s.tlu := rfl
@[simp] theorem setSlotState_suc (i : Fin 32) (x : SlotState) : (s.setSlotState i x).suc = s.suc := rfl
@[simp] theorem setSlotState_nv (i : Fin 32) (x : SlotState) : (s.setSlotState i x).nv = s.nv := rfl
@[simp] theorem setSlotState_fresh (i : Fin 32) (x : SlotState) : (s.setSlotState i x).fresh = s.fresh := rfl
@[simp] theorem setSlotState_raised (i : Fin 32) (x : SlotState) : (s.setSlotState i x).raised = s.raised := rfl
@[simp] theorem setSlotState_pending (i : Fin 32) (x : SlotState) : (s.setSlotState i x).pending = s.pending := rfl

/-! ### onBus changes `lanes` alone -/

@[simp] theorem onBus_pins (l : Fin 4) (w : List BusSym) : (s.onBus l w).pins = s.pins := rfl
@[simp] theorem onBus_hpt (l : Fin 4) (w : List BusSym) : (s.onBus l w).hpt = s.hpt := rfl
@[simp] theorem onBus_gtb (l : Fin 4) (w : List BusSym) : (s.onBus l w).gtb = s.gtb := rfl
@[simp] theorem onBus_lsq (l : Fin 4) (w : List BusSym) : (s.onBus l w).lsq = s.lsq := rfl
@[simp] theorem onBus_tgt (l : Fin 4) (w : List BusSym) : (s.onBus l w).tgt = s.tgt := rfl
@[simp] theorem onBus_sau (l : Fin 4) (w : List BusSym) : (s.onBus l w).sau = s.sau := rfl
@[simp] theorem onBus_tlu (l : Fin 4) (w : List BusSym) : (s.onBus l w).tlu = s.tlu := rfl
@[simp] theorem onBus_psc (l : Fin 4) (w : List BusSym) : (s.onBus l w).psc = s.psc := rfl
@[simp] theorem onBus_suc (l : Fin 4) (w : List BusSym) : (s.onBus l w).suc = s.suc := rfl
@[simp] theorem onBus_nv (l : Fin 4) (w : List BusSym) : (s.onBus l w).nv = s.nv := rfl
@[simp] theorem onBus_fresh (l : Fin 4) (w : List BusSym) : (s.onBus l w).fresh = s.fresh := rfl
@[simp] theorem onBus_raised (l : Fin 4) (w : List BusSym) : (s.onBus l w).raised = s.raised := rfl
@[simp] theorem onBus_pending (l : Fin 4) (w : List BusSym) : (s.onBus l w).pending = s.pending := rfl

/-! ### lastStepDue changes `suc` alone -/

@[simp] theorem lastStepDue_pins (r : StartResult) : (s.lastStepDue r).pins = s.pins := rfl
@[simp] theorem lastStepDue_hpt (r : StartResult) : (s.lastStepDue r).hpt = s.hpt := rfl
@[simp] theorem lastStepDue_gtb (r : StartResult) : (s.lastStepDue r).gtb = s.gtb := rfl
@[simp] theorem lastStepDue_lsq (r : StartResult) : (s.lastStepDue r).lsq = s.lsq := rfl
@[simp] theorem lastStepDue_tgt (r : StartResult) : (s.lastStepDue r).tgt = s.tgt := rfl
@[simp] theorem lastStepDue_lanes (r : StartResult) : (s.lastStepDue r).lanes = s.lanes := rfl
@[simp] theorem lastStepDue_sau (r : StartResult) : (s.lastStepDue r).sau = s.sau := rfl
@[simp] theorem lastStepDue_tlu (r : StartResult) : (s.lastStepDue r).tlu = s.tlu := rfl
@[simp] theorem lastStepDue_psc (r : StartResult) : (s.lastStepDue r).psc = s.psc := rfl
@[simp] theorem lastStepDue_nv (r : StartResult) : (s.lastStepDue r).nv = s.nv := rfl
@[simp] theorem lastStepDue_fresh (r : StartResult) : (s.lastStepDue r).fresh = s.fresh := rfl
@[simp] theorem lastStepDue_raised (r : StartResult) : (s.lastStepDue r).raised = s.raised := rfl
@[simp] theorem lastStepDue_pending (r : StartResult) : (s.lastStepDue r).pending = s.pending := rfl

/-! ### drawn changes `fresh` alone -/

@[simp] theorem drawn_pins : s.drawn.pins = s.pins := rfl
@[simp] theorem drawn_hpt : s.drawn.hpt = s.hpt := rfl
@[simp] theorem drawn_gtb : s.drawn.gtb = s.gtb := rfl
@[simp] theorem drawn_lsq : s.drawn.lsq = s.lsq := rfl
@[simp] theorem drawn_tgt : s.drawn.tgt = s.tgt := rfl
@[simp] theorem drawn_lanes : s.drawn.lanes = s.lanes := rfl
@[simp] theorem drawn_sau : s.drawn.sau = s.sau := rfl
@[simp] theorem drawn_tlu : s.drawn.tlu = s.tlu := rfl
@[simp] theorem drawn_psc : s.drawn.psc = s.psc := rfl
@[simp] theorem drawn_suc : s.drawn.suc = s.suc := rfl
@[simp] theorem drawn_nv : s.drawn.nv = s.nv := rfl
@[simp] theorem drawn_pending : s.drawn.pending = s.pending := rfl
@[simp] theorem drawn_fresh : s.drawn.fresh = s.fresh + 1 := rfl
@[simp] theorem drawn_raised : s.drawn.raised = s.raised := rfl

/-! ### noticesPlaced changes `raised` alone -/

@[simp] theorem noticesPlaced_pins : s.noticesPlaced.pins = s.pins := rfl
@[simp] theorem noticesPlaced_hpt : s.noticesPlaced.hpt = s.hpt := rfl
@[simp] theorem noticesPlaced_gtb : s.noticesPlaced.gtb = s.gtb := rfl
@[simp] theorem noticesPlaced_lsq : s.noticesPlaced.lsq = s.lsq := rfl
@[simp] theorem noticesPlaced_tgt : s.noticesPlaced.tgt = s.tgt := rfl
@[simp] theorem noticesPlaced_lanes : s.noticesPlaced.lanes = s.lanes := rfl
@[simp] theorem noticesPlaced_sau : s.noticesPlaced.sau = s.sau := rfl
@[simp] theorem noticesPlaced_tlu : s.noticesPlaced.tlu = s.tlu := rfl
@[simp] theorem noticesPlaced_psc : s.noticesPlaced.psc = s.psc := rfl
@[simp] theorem noticesPlaced_suc : s.noticesPlaced.suc = s.suc := rfl
@[simp] theorem noticesPlaced_nv : s.noticesPlaced.nv = s.nv := rfl
@[simp] theorem noticesPlaced_fresh : s.noticesPlaced.fresh = s.fresh := rfl
@[simp] theorem noticesPlaced_pending : s.noticesPlaced.pending = s.pending := rfl
@[simp] theorem noticesPlaced_raised : s.noticesPlaced.raised = 0 := rfl

/-! ### setEngine changes `psc` alone -/

@[simp] theorem setEngine_pins (e : Engine) : (s.setEngine e).pins = s.pins := rfl
@[simp] theorem setEngine_hpt (e : Engine) : (s.setEngine e).hpt = s.hpt := rfl
@[simp] theorem setEngine_gtb (e : Engine) : (s.setEngine e).gtb = s.gtb := rfl
@[simp] theorem setEngine_lsq (e : Engine) : (s.setEngine e).lsq = s.lsq := rfl
@[simp] theorem setEngine_tgt (e : Engine) : (s.setEngine e).tgt = s.tgt := rfl
@[simp] theorem setEngine_lanes (e : Engine) : (s.setEngine e).lanes = s.lanes := rfl
@[simp] theorem setEngine_sau (e : Engine) : (s.setEngine e).sau = s.sau := rfl
@[simp] theorem setEngine_tlu (e : Engine) : (s.setEngine e).tlu = s.tlu := rfl
@[simp] theorem setEngine_suc (e : Engine) : (s.setEngine e).suc = s.suc := rfl
@[simp] theorem setEngine_nv (e : Engine) : (s.setEngine e).nv = s.nv := rfl
@[simp] theorem setEngine_fresh (e : Engine) : (s.setEngine e).fresh = s.fresh := rfl
@[simp] theorem setEngine_raised (e : Engine) : (s.setEngine e).raised = s.raised := rfl
@[simp] theorem setEngine_pending (e : Engine) : (s.setEngine e).pending = s.pending := rfl

/-! ### setQueue changes `psc` alone -/

@[simp] theorem setQueue_pins (l : List StoreOp) : (s.setQueue l).pins = s.pins := rfl
@[simp] theorem setQueue_hpt (l : List StoreOp) : (s.setQueue l).hpt = s.hpt := rfl
@[simp] theorem setQueue_gtb (l : List StoreOp) : (s.setQueue l).gtb = s.gtb := rfl
@[simp] theorem setQueue_lsq (l : List StoreOp) : (s.setQueue l).lsq = s.lsq := rfl
@[simp] theorem setQueue_tgt (l : List StoreOp) : (s.setQueue l).tgt = s.tgt := rfl
@[simp] theorem setQueue_lanes (l : List StoreOp) : (s.setQueue l).lanes = s.lanes := rfl
@[simp] theorem setQueue_sau (l : List StoreOp) : (s.setQueue l).sau = s.sau := rfl
@[simp] theorem setQueue_tlu (l : List StoreOp) : (s.setQueue l).tlu = s.tlu := rfl
@[simp] theorem setQueue_suc (l : List StoreOp) : (s.setQueue l).suc = s.suc := rfl
@[simp] theorem setQueue_nv (l : List StoreOp) : (s.setQueue l).nv = s.nv := rfl
@[simp] theorem setQueue_fresh (l : List StoreOp) : (s.setQueue l).fresh = s.fresh := rfl
@[simp] theorem setQueue_raised (l : List StoreOp) : (s.setQueue l).raised = s.raised := rfl
@[simp] theorem setQueue_pending (l : List StoreOp) : (s.setQueue l).pending = s.pending := rfl

/-! ### setMem changes `nv` alone -/

@[simp] theorem setMem_pins (m : List Host.Cell) : (s.setMem m).pins = s.pins := rfl
@[simp] theorem setMem_hpt (m : List Host.Cell) : (s.setMem m).hpt = s.hpt := rfl
@[simp] theorem setMem_gtb (m : List Host.Cell) : (s.setMem m).gtb = s.gtb := rfl
@[simp] theorem setMem_lsq (m : List Host.Cell) : (s.setMem m).lsq = s.lsq := rfl
@[simp] theorem setMem_tgt (m : List Host.Cell) : (s.setMem m).tgt = s.tgt := rfl
@[simp] theorem setMem_lanes (m : List Host.Cell) : (s.setMem m).lanes = s.lanes := rfl
@[simp] theorem setMem_sau (m : List Host.Cell) : (s.setMem m).sau = s.sau := rfl
@[simp] theorem setMem_tlu (m : List Host.Cell) : (s.setMem m).tlu = s.tlu := rfl
@[simp] theorem setMem_psc (m : List Host.Cell) : (s.setMem m).psc = s.psc := rfl
@[simp] theorem setMem_suc (m : List Host.Cell) : (s.setMem m).suc = s.suc := rfl
@[simp] theorem setMem_fresh (m : List Host.Cell) : (s.setMem m).fresh = s.fresh := rfl
@[simp] theorem setMem_raised (m : List Host.Cell) : (s.setMem m).raised = s.raised := rfl
@[simp] theorem setMem_pending (m : List Host.Cell) : (s.setMem m).pending = s.pending := rfl

/-! ### answer changes `hpt` alone -/

@[simp] theorem answer_pins (tag : Byte) (st : Status) (r : List Byte) : (s.answer tag st r).pins = s.pins := rfl
@[simp] theorem answer_gtb (tag : Byte) (st : Status) (r : List Byte) : (s.answer tag st r).gtb = s.gtb := rfl
@[simp] theorem answer_lsq (tag : Byte) (st : Status) (r : List Byte) : (s.answer tag st r).lsq = s.lsq := rfl
@[simp] theorem answer_tgt (tag : Byte) (st : Status) (r : List Byte) : (s.answer tag st r).tgt = s.tgt := rfl
@[simp] theorem answer_lanes (tag : Byte) (st : Status) (r : List Byte) : (s.answer tag st r).lanes = s.lanes := rfl
@[simp] theorem answer_sau (tag : Byte) (st : Status) (r : List Byte) : (s.answer tag st r).sau = s.sau := rfl
@[simp] theorem answer_tlu (tag : Byte) (st : Status) (r : List Byte) : (s.answer tag st r).tlu = s.tlu := rfl
@[simp] theorem answer_psc (tag : Byte) (st : Status) (r : List Byte) : (s.answer tag st r).psc = s.psc := rfl
@[simp] theorem answer_suc (tag : Byte) (st : Status) (r : List Byte) : (s.answer tag st r).suc = s.suc := rfl
@[simp] theorem answer_nv (tag : Byte) (st : Status) (r : List Byte) : (s.answer tag st r).nv = s.nv := rfl
@[simp] theorem answer_fresh (tag : Byte) (st : Status) (r : List Byte) : (s.answer tag st r).fresh = s.fresh := rfl
@[simp] theorem answer_raised (tag : Byte) (st : Status) (r : List Byte) : (s.answer tag st r).raised = s.raised := rfl
@[simp] theorem answer_pending (tag : Byte) (st : Status) (r : List Byte) : (s.answer tag st r).pending = s.pending := rfl

/-! ### freed changes `hpt` and `fresh` alone -/

@[simp] theorem freed_pins : s.freed.pins = s.pins := by unfold State.freed; split <;> rfl
@[simp] theorem freed_gtb : s.freed.gtb = s.gtb := by unfold State.freed; split <;> rfl
@[simp] theorem freed_lsq : s.freed.lsq = s.lsq := by unfold State.freed; split <;> rfl
@[simp] theorem freed_tgt : s.freed.tgt = s.tgt := by unfold State.freed; split <;> rfl
@[simp] theorem freed_lanes : s.freed.lanes = s.lanes := by unfold State.freed; split <;> rfl
@[simp] theorem freed_sau : s.freed.sau = s.sau := by unfold State.freed; split <;> rfl
@[simp] theorem freed_tlu : s.freed.tlu = s.tlu := by unfold State.freed; split <;> rfl
@[simp] theorem freed_psc : s.freed.psc = s.psc := by unfold State.freed; split <;> rfl
@[simp] theorem freed_suc : s.freed.suc = s.suc := by unfold State.freed; split <;> rfl
@[simp] theorem freed_nv : s.freed.nv = s.nv := by unfold State.freed; split <;> rfl
@[simp] theorem freed_raised : s.freed.raised = s.raised := by unfold State.freed; split <;> rfl
@[simp] theorem freed_pending : s.freed.pending = s.pending := by unfold State.freed; split <;> rfl

/-! ### notify changes `hpt`, `fresh` and `raised` alone -/

@[simp] theorem notify_pins (c : Byte) (p : List Byte) (u : Bool) : (s.notify c p u).pins = s.pins := rfl
@[simp] theorem notify_gtb (c : Byte) (p : List Byte) (u : Bool) : (s.notify c p u).gtb = s.gtb := rfl
@[simp] theorem notify_lsq (c : Byte) (p : List Byte) (u : Bool) : (s.notify c p u).lsq = s.lsq := rfl
@[simp] theorem notify_tgt (c : Byte) (p : List Byte) (u : Bool) : (s.notify c p u).tgt = s.tgt := rfl
@[simp] theorem notify_lanes (c : Byte) (p : List Byte) (u : Bool) : (s.notify c p u).lanes = s.lanes := rfl
@[simp] theorem notify_sau (c : Byte) (p : List Byte) (u : Bool) : (s.notify c p u).sau = s.sau := rfl
@[simp] theorem notify_tlu (c : Byte) (p : List Byte) (u : Bool) : (s.notify c p u).tlu = s.tlu := rfl
@[simp] theorem notify_psc (c : Byte) (p : List Byte) (u : Bool) : (s.notify c p u).psc = s.psc := rfl
@[simp] theorem notify_suc (c : Byte) (p : List Byte) (u : Bool) : (s.notify c p u).suc = s.suc := rfl
@[simp] theorem notify_nv (c : Byte) (p : List Byte) (u : Bool) : (s.notify c p u).nv = s.nv := rfl
@[simp] theorem notify_fresh (c : Byte) (p : List Byte) (u : Bool) : (s.notify c p u).fresh = s.fresh + 1 := rfl
@[simp] theorem notify_pending (c : Byte) (p : List Byte) (u : Bool) : (s.notify c p u).pending = s.pending := rfl

/-! ### refuse changes `hpt` alone -/

@[simp] theorem refuse_pins (h : ReqHead) (c : Byte) (st : Status) : (s.refuse h c st).pins = s.pins := rfl
@[simp] theorem refuse_gtb (h : ReqHead) (c : Byte) (st : Status) : (s.refuse h c st).gtb = s.gtb := rfl
@[simp] theorem refuse_lsq (h : ReqHead) (c : Byte) (st : Status) : (s.refuse h c st).lsq = s.lsq := rfl
@[simp] theorem refuse_tgt (h : ReqHead) (c : Byte) (st : Status) : (s.refuse h c st).tgt = s.tgt := rfl
@[simp] theorem refuse_lanes (h : ReqHead) (c : Byte) (st : Status) : (s.refuse h c st).lanes = s.lanes := rfl
@[simp] theorem refuse_sau (h : ReqHead) (c : Byte) (st : Status) : (s.refuse h c st).sau = s.sau := rfl
@[simp] theorem refuse_tlu (h : ReqHead) (c : Byte) (st : Status) : (s.refuse h c st).tlu = s.tlu := rfl
@[simp] theorem refuse_psc (h : ReqHead) (c : Byte) (st : Status) : (s.refuse h c st).psc = s.psc := rfl
@[simp] theorem refuse_suc (h : ReqHead) (c : Byte) (st : Status) : (s.refuse h c st).suc = s.suc := rfl
@[simp] theorem refuse_nv (h : ReqHead) (c : Byte) (st : Status) : (s.refuse h c st).nv = s.nv := rfl
@[simp] theorem refuse_fresh (h : ReqHead) (c : Byte) (st : Status) : (s.refuse h c st).fresh = s.fresh := rfl
@[simp] theorem refuse_raised (h : ReqHead) (c : Byte) (st : Status) : (s.refuse h c st).raised = s.raised := rfl
@[simp] theorem refuse_pending (h : ReqHead) (c : Byte) (st : Status) : (s.refuse h c st).pending = s.pending := rfl

/-! ### accepted changes `hpt` alone -/

@[simp] theorem accepted_pins (h : ReqHead) (c : Byte) : (s.accepted h c).pins = s.pins := rfl
@[simp] theorem accepted_gtb (h : ReqHead) (c : Byte) : (s.accepted h c).gtb = s.gtb := rfl
@[simp] theorem accepted_lsq (h : ReqHead) (c : Byte) : (s.accepted h c).lsq = s.lsq := rfl
@[simp] theorem accepted_tgt (h : ReqHead) (c : Byte) : (s.accepted h c).tgt = s.tgt := rfl
@[simp] theorem accepted_lanes (h : ReqHead) (c : Byte) : (s.accepted h c).lanes = s.lanes := rfl
@[simp] theorem accepted_sau (h : ReqHead) (c : Byte) : (s.accepted h c).sau = s.sau := rfl
@[simp] theorem accepted_tlu (h : ReqHead) (c : Byte) : (s.accepted h c).tlu = s.tlu := rfl
@[simp] theorem accepted_psc (h : ReqHead) (c : Byte) : (s.accepted h c).psc = s.psc := rfl
@[simp] theorem accepted_suc (h : ReqHead) (c : Byte) : (s.accepted h c).suc = s.suc := rfl
@[simp] theorem accepted_nv (h : ReqHead) (c : Byte) : (s.accepted h c).nv = s.nv := rfl
@[simp] theorem accepted_fresh (h : ReqHead) (c : Byte) : (s.accepted h c).fresh = s.fresh := rfl
@[simp] theorem accepted_raised (h : ReqHead) (c : Byte) : (s.accepted h c).raised = s.raised := rfl
@[simp] theorem accepted_pending (h : ReqHead) (c : Byte) : (s.accepted h c).pending = s.pending := rfl

/-! ### setRx changes `hpt` alone -/

@[simp] theorem setRx_pins (x : Rx) : (s.setRx x).pins = s.pins := rfl
@[simp] theorem setRx_gtb (x : Rx) : (s.setRx x).gtb = s.gtb := rfl
@[simp] theorem setRx_lsq (x : Rx) : (s.setRx x).lsq = s.lsq := rfl
@[simp] theorem setRx_tgt (x : Rx) : (s.setRx x).tgt = s.tgt := rfl
@[simp] theorem setRx_lanes (x : Rx) : (s.setRx x).lanes = s.lanes := rfl
@[simp] theorem setRx_sau (x : Rx) : (s.setRx x).sau = s.sau := rfl
@[simp] theorem setRx_tlu (x : Rx) : (s.setRx x).tlu = s.tlu := rfl
@[simp] theorem setRx_psc (x : Rx) : (s.setRx x).psc = s.psc := rfl
@[simp] theorem setRx_suc (x : Rx) : (s.setRx x).suc = s.suc := rfl
@[simp] theorem setRx_nv (x : Rx) : (s.setRx x).nv = s.nv := rfl
@[simp] theorem setRx_fresh (x : Rx) : (s.setRx x).fresh = s.fresh := rfl
@[simp] theorem setRx_raised (x : Rx) : (s.setRx x).raised = s.raised := rfl
@[simp] theorem setRx_pending (x : Rx) : (s.setRx x).pending = s.pending := rfl

/-! ### withPending changes `pending` alone -/

@[simp] theorem withPending_pins (q : List Instr) : (s.withPending q).pins = s.pins := rfl
@[simp] theorem withPending_hpt (q : List Instr) : (s.withPending q).hpt = s.hpt := rfl
@[simp] theorem withPending_gtb (q : List Instr) : (s.withPending q).gtb = s.gtb := rfl
@[simp] theorem withPending_lsq (q : List Instr) : (s.withPending q).lsq = s.lsq := rfl
@[simp] theorem withPending_tgt (q : List Instr) : (s.withPending q).tgt = s.tgt := rfl
@[simp] theorem withPending_lanes (q : List Instr) : (s.withPending q).lanes = s.lanes := rfl
@[simp] theorem withPending_sau (q : List Instr) : (s.withPending q).sau = s.sau := rfl
@[simp] theorem withPending_tlu (q : List Instr) : (s.withPending q).tlu = s.tlu := rfl
@[simp] theorem withPending_psc (q : List Instr) : (s.withPending q).psc = s.psc := rfl
@[simp] theorem withPending_suc (q : List Instr) : (s.withPending q).suc = s.suc := rfl
@[simp] theorem withPending_nv (q : List Instr) : (s.withPending q).nv = s.nv := rfl
@[simp] theorem withPending_fresh (q : List Instr) : (s.withPending q).fresh = s.fresh := rfl
@[simp] theorem withPending_raised (q : List Instr) : (s.withPending q).raised = s.raised := rfl

/-! ### setLine changes `sau` alone -/

@[simp] theorem setLine_pins (l : Line) (x : SyncLine) : (s.setLine l x).pins = s.pins := by cases l <;> rfl
@[simp] theorem setLine_hpt (l : Line) (x : SyncLine) : (s.setLine l x).hpt = s.hpt := by cases l <;> rfl
@[simp] theorem setLine_gtb (l : Line) (x : SyncLine) : (s.setLine l x).gtb = s.gtb := by cases l <;> rfl
@[simp] theorem setLine_lsq (l : Line) (x : SyncLine) : (s.setLine l x).lsq = s.lsq := by cases l <;> rfl
@[simp] theorem setLine_tgt (l : Line) (x : SyncLine) : (s.setLine l x).tgt = s.tgt := by cases l <;> rfl
@[simp] theorem setLine_lanes (l : Line) (x : SyncLine) : (s.setLine l x).lanes = s.lanes := by cases l <;> rfl
@[simp] theorem setLine_tlu (l : Line) (x : SyncLine) : (s.setLine l x).tlu = s.tlu := by cases l <;> rfl
@[simp] theorem setLine_psc (l : Line) (x : SyncLine) : (s.setLine l x).psc = s.psc := by cases l <;> rfl
@[simp] theorem setLine_suc (l : Line) (x : SyncLine) : (s.setLine l x).suc = s.suc := by cases l <;> rfl
@[simp] theorem setLine_nv (l : Line) (x : SyncLine) : (s.setLine l x).nv = s.nv := by cases l <;> rfl
@[simp] theorem setLine_fresh (l : Line) (x : SyncLine) : (s.setLine l x).fresh = s.fresh := by cases l <;> rfl
@[simp] theorem setLine_raised (l : Line) (x : SyncLine) : (s.setLine l x).raised = s.raised := by cases l <;> rfl
@[simp] theorem setLine_pending (l : Line) (x : SyncLine) : (s.setLine l x).pending = s.pending := by cases l <;> rfl

/-! ### The changed field itself -/

@[simp] theorem withPending_self (q : List Instr) : (s.withPending q).pending = q := rfl
@[simp] theorem setMem_mem (m : List Host.Cell) : (s.setMem m).nv.mem = m := rfl
@[simp] theorem setMem_locks (m : List Host.Cell) : (s.setMem m).nv.locks = s.nv.locks := rfl
@[simp] theorem setEngine_engine (e : Engine) : (s.setEngine e).psc.engine = e := rfl
@[simp] theorem setEngine_queue (e : Engine) : (s.setEngine e).psc.queue = s.psc.queue := rfl
@[simp] theorem setEngine_dir (e : Engine) : (s.setEngine e).psc.dir = s.psc.dir := rfl
@[simp] theorem setQueue_queue (l : List StoreOp) : (s.setQueue l).psc.queue = l := rfl
@[simp] theorem setQueue_engine (l : List StoreOp) : (s.setQueue l).psc.engine = s.psc.engine := rfl
@[simp] theorem setQueue_dir (l : List StoreOp) : (s.setQueue l).psc.dir = s.psc.dir := rfl
@[simp] theorem setSlot_engine (i : Fin 32) (e : DirEntry) : (s.setSlot i e).psc.engine = s.psc.engine := rfl
@[simp] theorem setSlot_queue (i : Fin 32) (e : DirEntry) : (s.setSlot i e).psc.queue = s.psc.queue := rfl
@[simp] theorem setArm_arm (l : List ArmEntry) : (s.setArm l).sau.arm = l := rfl
@[simp] theorem leaveWindows_arm (g : Fin 8) : (s.leaveWindows g).sau.arm = s.sau.arm := rfl
@[simp] theorem setLine_arm (l : Line) (x : SyncLine) : (s.setLine l x).sau.arm = s.sau.arm := by cases l <;> rfl
@[simp] theorem setGroup_free (g : Fin 8) (e : GroupEntry) : (s.setGroup g e).gtb.free = s.gtb.free := rfl

/-! ### Reading an entry back -/

@[simp] theorem group_setGroup_self (g : Fin 8) (e : GroupEntry) : (s.setGroup g e).group g = e := by
  simp [State.group, State.setGroup]

theorem group_setGroup (g g' : Fin 8) (e : GroupEntry) :
    (s.setGroup g e).group g' = if g = g' then e else s.group g' := by
  simp [State.group, State.setGroup, Vector.getElem_set, Fin.ext_iff]

@[simp] theorem account_setAccount_self (g : Fin 8) (a : Account) : (s.setAccount g a).account g = a := by
  simp [State.account, State.setAccount]

theorem account_setAccount (g g' : Fin 8) (a : Account) :
    (s.setAccount g a).account g' = if g = g' then a else s.account g' := by
  simp [State.account, State.setAccount, Vector.getElem_set, Fin.ext_iff]

@[simp] theorem target_setTarget_self (t : Fin 16) (e : TargetEntry) : (s.setTarget t e).target t = e := by
  simp [State.target, State.setTarget]

theorem target_setTarget (t t' : Fin 16) (e : TargetEntry) :
    (s.setTarget t e).target t' = if t = t' then e else s.target t' := by
  simp [State.target, State.setTarget, Vector.getElem_set, Fin.ext_iff]

@[simp] theorem lane_setLane_self (l : Fin 4) (x : Lane) : (s.setLane l x).lane l = x := by
  simp [State.lane, State.setLane]

theorem lane_setLane (l l' : Fin 4) (x : Lane) : (s.setLane l x).lane l' = if l = l' then x else s.lane l' := by
  simp [State.lane, State.setLane, Vector.getElem_set, Fin.ext_iff]

@[simp] theorem loop_setLoop_self (n : Fin 4) (e : LoopEntry) : (s.setLoop n e).loop n = e := by
  simp [State.loop, State.setLoop]

@[simp] theorem lane_onBus_flight (l l' : Fin 4) (w : List BusSym) :
    ((s.onBus l w).lane l').flight = (s.lane l').flight := by
  by_cases h : l = l'
  · subst h; simp [State.onBus]
  · simp [State.onBus, State.lane_setLane, h]

@[simp] theorem lane_onBus_queue (l l' : Fin 4) (w : List BusSym) : ((s.onBus l w).lane l').queue = (s.lane l').queue := by
  by_cases h : l = l'
  · subst h; simp [State.onBus]
  · simp [State.onBus, State.lane_setLane, h]

@[simp] theorem lane_onBus_settings (l l' : Fin 4) (w : List BusSym) :
    ((s.onBus l w).lane l').settings = (s.lane l').settings := by
  by_cases h : l = l'
  · subst h; simp [State.onBus]
  · simp [State.onBus, State.lane_setLane, h]

@[simp] theorem lane_onBus_bus (l : Fin 4) (w : List BusSym) : ((s.onBus l w).lane l).bus = w := by simp [State.onBus]

theorem loop_setLoop (n n' : Fin 4) (e : LoopEntry) : (s.setLoop n e).loop n' = if n = n' then e else s.loop n' := by
  simp [State.loop, State.setLoop, Vector.getElem_set, Fin.ext_iff]

@[simp] theorem slot_setSlot_self (i : Fin 32) (e : DirEntry) : (s.setSlot i e).slot i = e := by
  simp [State.slot, State.setSlot]

theorem slot_setSlot (i i' : Fin 32) (e : DirEntry) :
    (s.setSlot i e).slot i' = if i = i' then e else s.slot i' := by
  simp [State.slot, State.setSlot, Vector.getElem_set, Fin.ext_iff]

@[simp] theorem line_setLine_self (l : Line) (x : SyncLine) : (s.setLine l x).line l = x := by cases l <;> rfl

theorem line_setLine (l l' : Line) (x : SyncLine) : (s.setLine l x).line l' = if l = l' then x else s.line l' := by
  cases l <;> cases l' <;> simp [State.line, State.setLine]

/-! ### The two ways of a start's last step -/

theorem startStep_cases (e : LoadEnd) :
    s.startStep e = s.startLoaded e ∨ s.startStep e = (s.startLoaded e).lastStep := by
  unfold State.startStep
  split_ifs
  · exact .inl rfl
  · exact .inr rfl

/-! ### Entries of one table under updates of another -/

@[simp] theorem group_setAccount (g g' : Fin 8) (a : Account) : (s.setAccount g a).group g' = s.group g' := rfl
@[simp] theorem group_setLane (l : Fin 4) (x : Lane) (g : Fin 8) : (s.setLane l x).group g = s.group g := rfl
@[simp] theorem group_setFlight (l : Fin 4) (x : Option Flight) (g : Fin 8) : (s.setFlight l x).group g = s.group g := rfl
@[simp] theorem group_appendJob (l : Fin 4) (j : Job) (g : Fin 8) : (s.appendJob l j).group g = s.group g := rfl
@[simp] theorem group_setLoop (n : Fin 4) (e : LoopEntry) (g : Fin 8) : (s.setLoop n e).group g = s.group g := rfl
@[simp] theorem group_setTarget (t : Fin 16) (e : TargetEntry) (g : Fin 8) : (s.setTarget t e).group g = s.group g := rfl
@[simp] theorem group_setArm (l : List ArmEntry) (g : Fin 8) : (s.setArm l).group g = s.group g := rfl
@[simp] theorem group_answer (t : Byte) (st : Status) (r : List Byte) (g : Fin 8) :
    (s.answer t st r).group g = s.group g := rfl
@[simp] theorem group_notify (c : Byte) (p : List Byte) (u : Bool) (g : Fin 8) : (s.notify c p u).group g = s.group g := rfl
@[simp] theorem account_setGroup (g g' : Fin 8) (e : GroupEntry) : (s.setGroup g e).account g' = s.account g' := rfl
@[simp] theorem account_appendJob (l : Fin 4) (j : Job) (g : Fin 8) : (s.appendJob l j).account g = s.account g := rfl
@[simp] theorem account_setLane (l : Fin 4) (x : Lane) (g : Fin 8) : (s.setLane l x).account g = s.account g := rfl
@[simp] theorem lane_setGroup (g : Fin 8) (e : GroupEntry) (l : Fin 4) : (s.setGroup g e).lane l = s.lane l := rfl
@[simp] theorem lane_setAccount (g : Fin 8) (a : Account) (l : Fin 4) : (s.setAccount g a).lane l = s.lane l := rfl
@[simp] theorem lane_setLoop (n : Fin 4) (e : LoopEntry) (l : Fin 4) : (s.setLoop n e).lane l = s.lane l := rfl
@[simp] theorem lane_setTarget (t : Fin 16) (e : TargetEntry) (l : Fin 4) : (s.setTarget t e).lane l = s.lane l := rfl
@[simp] theorem loop_setLane (l : Fin 4) (x : Lane) (n : Fin 4) : (s.setLane l x).loop n = s.loop n := rfl
@[simp] theorem loop_appendJob (l : Fin 4) (j : Job) (n : Fin 4) : (s.appendJob l j).loop n = s.loop n := rfl

end Sys2Proof.Machine.State
end

