-- ==== Sys2Proof/Laws/Host.lean ====
section
/-! SUPPORT. The Host Port's shared operations: what a request that passes its checks comes to, and what each operation
does to the queues and their limits. -/

namespace Sys2Proof.Machine

/-! ## A command as a whole step -/

/-- A part that takes events takes the command, then the arbiter. -/
theorem taking_live {s : State} (h : s.live = true) (f : State → State) : s.taking f = .next (f s).arbitrated := by
  simp [State.taking, h]

/-- A part that takes no events is left as it is. -/
theorem taking_dead {s : State} (h : s.live = false) (f : State → State) : s.taking f = .next s := by
  simp [State.taking, h]

/-! ## Requests -/

/-- A frame that finds no place is dropped (R191). -/
theorem request_dropped {s : State} {h : ReqHead} {code : Byte} {chk : Option Status} {own : State → State}
    (hp : Config.replyPlaces ≤ s.hpt.placesUsed) : s.request h code chk own = s := by
  simp [State.request, hp]

/-- A frame that fails a check is refused (R191, R192). -/
theorem request_refused {s : State} {h : ReqHead} {code : Byte} {chk : Option Status} {own : State → State} {st : Status}
    (hp : s.hpt.placesUsed < Config.replyPlaces) (hr : s.refusal h code chk = some st) :
    s.request h code chk own = s.refuse h code st := by
  simp [State.request, Nat.not_le.2 hp, hr]

/-- A frame that passes every check is passed to its owner (R192). -/
theorem request_accepted {s : State} {h : ReqHead} {code : Byte} {chk : Option Status} {own : State → State}
    (hp : s.hpt.placesUsed < Config.replyPlaces) (hr : s.refusal h code chk = none) :
    s.request h code chk own = own (s.accepted h code) := by
  simp [State.request, Nat.not_le.2 hp, hr]

/-- The conditions of `admits` leave nothing to refuse. -/
theorem refusal_admits {s : State} {h : ReqHead} (ha : s.admits h) (code : Byte) : s.refusal h code none = none := by
  obtain ⟨⟨-, -, hc, ht, hu, hn⟩, hr⟩ := ha
  simp only [State.refusal, hc, ht, hu, hr, Nat.not_le.2 hn]
  simp

/-- PART.IDENT and PART.STATUS are heard in both phases (R185). -/
theorem refusal_hears {s : State} {h : ReqHead} (ha : s.hears h) {code : Byte} (hc : code = 0x70#8 ∨ code = 0x71#8) :
    s.refusal h code none = none := by
  obtain ⟨-, -, hk, ht, hu, hn⟩ := ha
  simp only [State.refusal, hk, ht, hu, Nat.not_le.2 hn]
  rcases hc with rfl | rfl <;> simp

/-- The reply of a request just accepted takes its entry's place. -/
theorem answer_accepted {x : Hpt} {h : ReqHead} {code : Byte} (hu : x.outstanding.any (fun o => o.tag == h.tag) = false)
    (body : List Byte) (full : Bool) :
    Hpt.answer { x with outstanding := x.outstanding ++ [⟨h.tag, code⟩] } h.tag body full =
      x.enqueue ⟨h.tag, code ||| 0x80#8, body, full⟩ := by
  have hn : ∀ o ∈ x.outstanding, (o.tag == h.tag) = false := by simpa using hu
  have hf : (x.outstanding ++ [(⟨h.tag, code⟩ : Outstanding)]).find? (fun o => o.tag == h.tag) = some ⟨h.tag, code⟩ := by
    rw [List.find?_append, List.find?_eq_none.2 fun o ho => by simp [hn o ho]]
    simp
  have he : (x.outstanding ++ [(⟨h.tag, code⟩ : Outstanding)]).eraseP (fun o => o.tag == h.tag) = x.outstanding := by
    rw [List.eraseP_append_right _ fun o ho => by simp [hn o ho]]
    simp
  simp only [Hpt.answer, hf, he, Hpt.enqueue]

/-- A request that is accepted and answered in the same step: its owner changes the state by `f`, which leaves the
Host Port as it is, and replies. -/
theorem request_replied {s : State} {h : ReqHead} (ha : s.admits h) (code : Byte) (f : State → State) (st : Status)
    (r : List Byte) {own : State → State} (ho : own (s.accepted h code) = (f (s.accepted h code)).answer h.tag st r)
    (hf : f (s.accepted h code) = { f s with hpt := (s.accepted h code).hpt }) (hh : (f s).hpt = s.hpt) :
    s.taking (fun s => s.request h code none own) = .next ((f s).replied h code st r) := by
  rw [taking_live ha.1.1, request_accepted ha.1.2.1 (refusal_admits ha code), ho, hf]
  simp only [State.answer, State.arbitrated, State.replied, State.accepted, hh]
  rw [answer_accepted ha.1.2.2.2.2.1]

/-- The reply to a request just accepted, at the end of its step. -/
theorem answer_replied {s : State} {h : ReqHead} (hu : s.hpt.outstanding.any (fun o => o.tag == h.tag) = false)
    (code : Byte) (st : Status) (r : List Byte) :
    ((s.accepted h code).answer h.tag st r).arbitrated = s.replied h code st r := by
  simp only [State.answer, State.arbitrated, State.replied, State.accepted]
  rw [answer_accepted hu]

/-- An admitted request, handed to its owner, is the whole step. -/
theorem taking_request {s : State} {h : ReqHead} (ha : s.admits h) (code : Byte) (own : State → State) :
    s.taking (fun s => s.request h code none own) = .next (own (s.accepted h code)).arbitrated := by
  rw [taking_live ha.1.1, request_accepted ha.1.2.1 (refusal_admits ha code)]

/-! ## The limits (R193 to R195) -/

/-- The limits, on the Host Port alone. -/
abbrev Hpt.limits (x : Hpt) : Prop :=
  x.outstanding.length ≤ Config.maxOutstanding ∧ x.placesUsed ≤ Config.replyPlaces ∧
  x.notices.length ≤ Config.maxNotices

/-- A reply takes the place of its outstanding entry. -/
theorem limits_answer {x : Hpt} (hx : x.limits) (tag : Byte) (body : List Byte) (full : Bool) :
    (x.answer tag body full).limits := by
  unfold Hpt.answer
  split
  · exact hx
  · rename_i o ho
    have hm := List.mem_of_find?_eq_some ho
    have ht : (fun x : Outstanding => x.tag == tag) o = true := List.find?_some (p := fun x : Outstanding => x.tag == tag) ho
    have hl := List.length_eraseP_of_mem (p := fun x : Outstanding => x.tag == tag) hm ht
    have hp := List.length_pos_of_mem hm
    obtain ⟨h1, h2, h3⟩ := hx
    refine ⟨?_, ?_, h3⟩
    · simp only [hl]; omega
    · simp only [Hpt.placesUsed, hl, List.length_append, List.length_singleton] at h2 ⊢; omega

/-- A notice joins only a queue with room. -/
theorem limits_join {x : Hpt} (hx : x.limits) (n : Notice) (k : Nat) : (x.join n k).limits := by
  have hl : (x.notices.take (x.notices.length - k) ++ n :: x.notices.drop (x.notices.length - k)).length =
      x.notices.length + 1 := by
    simp only [List.length_append, List.length_cons, List.length_take, List.length_drop]; omega
  unfold Hpt.join
  split
  · exact ⟨hx.1, hx.2.1, by simp only [hl]; omega⟩
  · exact ⟨hx.1, hx.2.1, by simp only [List.length_dropLast, hl]; exact hx.2.2⟩

/-- A notice that passes none joins the tail of the queue, or is dropped. -/
theorem join_zero (x : Hpt) (n : Notice) :
    x.join n 0 = if x.notices.length < Config.maxNotices then { x with notices := x.notices ++ [n] } else { x with lost := true } := by
  simp [Hpt.join]

/-- In a step that has raised no notice before, a notice passes none. -/
theorem passable_zero (x : Hpt) (n : Notice) : x.passable 0 n = 0 := by simp [Hpt.passable]

/-- A notice raised first in its step joins the tail of the queue (R195). -/
theorem notify_first {s : State} (h : s.raised = 0) (code : Byte) (payload : List Byte) :
    (s.notify code payload).hpt = (s.hpt.join ⟨code, payload⟩ 0).atOnce (Config.noticeAtOnce s.fresh) := by
  simp [State.notify, h, passable_zero, atMost]

/-- Under a partial reset it does so with the reset's mark (R206). -/
theorem notify_first_cut {s : State} (h : s.raised = 0) (code : Byte) (payload : List Byte) :
    (s.notify code payload true).hpt = (s.hpt.join ⟨code, payload⟩ 0).cutRaised := by
  simp [State.notify, h, passable_zero, atMost]

/-- A notice taken leaves the replies and the outstanding requests as they are. -/
@[simp] theorem takeNotice_replies (x : Hpt) : x.takeNotice.replies = x.replies := by
  unfold Hpt.takeNotice; split <;> rfl

@[simp] theorem takeNotice_outstanding (x : Hpt) : x.takeNotice.outstanding = x.outstanding := by
  unfold Hpt.takeNotice; split <;> rfl

/-- A notice taken leaves the notice queue from its head (R195). -/
theorem takeNotice_notices (x : Hpt) : x.takeNotice.notices = x.notices.tail := by
  unfold Hpt.takeNotice
  split <;> simp_all

/-- A notice taken keeps the limits. -/
theorem limits_takeNotice {x : Hpt} (hx : x.limits) : x.takeNotice.limits := by
  refine ⟨by simpa using hx.1, by simpa [Hpt.placesUsed] using hx.2.1, ?_⟩
  rw [takeNotice_notices, List.length_tail]
  exact Nat.le_trans (Nat.sub_le _ _) hx.2.2

/-- The arbiter only takes frames from the queues. -/
theorem limits_arbitrate {x : Hpt} (hx : x.limits) : x.arbitrate.limits := by
  unfold Hpt.arbitrate
  split
  · exact hx
  · rename_i hr
    obtain ⟨h1, h2, h3⟩ := hx
    refine ⟨h1, ?_, h3⟩
    simp only [Hpt.placesUsed, hr, List.length_cons] at h2 ⊢; omega
  · exact limits_takeNotice hx

/-- A CUT notice's mark keeps the limits. -/
theorem limits_cutRaised {x : Hpt} (hx : x.limits) : x.cutRaised.limits := by
  unfold Hpt.cutRaised
  split_ifs <;> exact hx

/-- A CUT notice's mark leaves the replies and the outstanding requests as they are. -/
theorem cutRaised_replies (x : Hpt) : x.cutRaised.replies = x.replies ∧ x.cutRaised.outstanding = x.outstanding := by
  unfold Hpt.cutRaised
  split_ifs <;> exact ⟨rfl, rfl⟩

/-- Under a partial reset a transmitter that is free stays so, and every queue is as it was (R206). -/
theorem cutRaised_free {x : Hpt} (h : x.sending = none) : x.cutRaised = x := by simp [Hpt.cutRaised, h]

/-- A notice taken at once leaves the queue it joined. -/
theorem limits_atOnce {x : Hpt} (hx : x.limits) (now : Bool) : (x.atOnce now).limits := by
  unfold Hpt.atOnce
  split_ifs
  · exact limits_arbitrate hx
  · exact hx

/-- A busy transmitter takes no notice at once. -/
theorem atOnce_busy {x : Hpt} (h : x.sending ≠ none) (now : Bool) : x.atOnce now = x := by
  cases hx : x.sending <;> simp_all [Hpt.atOnce]

/-- With a reply queued no notice is taken at once. -/
theorem atOnce_reply {x : Hpt} (h : x.replies ≠ []) (now : Bool) : x.atOnce now = x := by
  cases hx : x.replies <;> simp_all [Hpt.atOnce]

/-- A free transmitter with no reply queued takes the head notice at once, or does not yet. -/
theorem atOnce_free {x : Hpt} (hs : x.sending = none) (hr : x.replies = []) (now : Bool) :
    x.atOnce now = if now = true then x.arbitrate else x := by
  simp [Hpt.atOnce, hs, hr]

/-- The replies and the outstanding requests stay as they are when a notice is raised. -/
theorem atOnce_replies (x : Hpt) (now : Bool) :
    (x.atOnce now).replies = x.replies ∧ (x.atOnce now).outstanding = x.outstanding := by
  unfold Hpt.atOnce Hpt.arbitrate
  split_ifs with h
  · split <;> simp_all
  · exact ⟨rfl, rfl⟩

/-- The replies and the outstanding requests stay as they are when a notice is raised, under a reset or not. -/
theorem notify_replies (s : State) (code : Byte) (payload : List Byte) (cut : Bool) :
    (s.notify code payload cut).hpt.replies = s.hpt.replies ∧
      (s.notify code payload cut).hpt.outstanding = s.hpt.outstanding := by
  have hj (k : Nat) : (s.hpt.join ⟨code, payload⟩ k).replies = s.hpt.replies ∧
      (s.hpt.join ⟨code, payload⟩ k).outstanding = s.hpt.outstanding := by
    unfold Hpt.join; split <;> exact ⟨rfl, rfl⟩
  unfold State.notify
  cases cut
  · exact ⟨(atOnce_replies _ _).1.trans (hj _).1, (atOnce_replies _ _).2.trans (hj _).2⟩
  · exact ⟨(cutRaised_replies _).1.trans (hj _).1, (cutRaised_replies _).2.trans (hj _).2⟩

/-- A notice raised keeps the limits. -/
theorem limits_notify {s : State} (hs : s.hpt.limits) (code : Byte) (payload : List Byte) (cut : Bool) :
    (s.notify code payload cut).hpt.limits := by
  unfold State.notify
  cases cut
  · exact limits_atOnce (limits_join hs _ _) _
  · exact limits_cutRaised (limits_join hs _ _)

/-- A chosen number is within its bound. -/
theorem atMost_le (n k : Nat) : atMost n k ≤ n := by
  unfold atMost
  split_ifs
  · exact Nat.zero_le n
  · exact Nat.lt_succ_iff.1 (Nat.mod_lt _ (Nat.succ_pos n))

/-- No more notices may be passed than the step has raised. -/
theorem passable_le (x : Hpt) (raised : Nat) (n : Notice) : x.passable raised n ≤ raised :=
  Nat.le_trans (List.takeWhile_sublist _).length_le (List.length_take_le ..)

/-- With a reply queued, a notice raised joins the queue and the transmitter takes none (R196). -/
theorem notify_queued {s : State} (hr : s.hpt.replies ≠ []) (code : Byte) (payload : List Byte) (cut : Bool) :
    (s.notify code payload cut).hpt =
      s.hpt.join ⟨code, payload⟩ (atMost (s.hpt.passable s.raised ⟨code, payload⟩) (Config.noticePlace s.fresh)) := by
  have hj (k : Nat) : (s.hpt.join ⟨code, payload⟩ k).replies ≠ [] := by unfold Hpt.join; split <;> exact hr
  cases cut
  · exact atOnce_reply (hj _) _
  · simp [State.notify, Hpt.cutRaised, hj]

/-- What stands in the queues keeps its place: the frame being sent, the replies `rs` and the notices `ns`, with at least
the notices that one raised now arrives together with behind these. -/
abbrev State.queuesKept (f : Option Sending) (rs : List Reply) (ns : List Notice) (s : State) : Prop :=
  s.hpt.sending = f ∧ (∃ more, s.hpt.replies = rs ++ more) ∧ ∃ later, s.hpt.notices = ns ++ later ∧ s.raised ≤ later.length

/-- A notice that passes no more than `later` joins behind the notices ahead of these, or the last in the order is dropped. -/
theorem join_later {x : Hpt} {ns later : List Notice} (h : x.notices = ns ++ later) (n : Notice) {k : Nat}
    (hk : k ≤ later.length) :
    ∃ l, (x.join n k).notices = ns ++ l ∧
      l.length = if x.notices.length < Config.maxNotices then later.length + 1 else later.length := by
  have hf : x.notices.length - k = ns.length + (later.length - k) := by rw [h, List.length_append]; omega
  have hl : x.notices.take (x.notices.length - k) ++ n :: x.notices.drop (x.notices.length - k) =
      ns ++ (later.take (later.length - k) ++ n :: later.drop (later.length - k)) := by
    rw [hf, h, List.take_length_add_append, List.drop_length_add_append, List.append_assoc]
  simp only [Hpt.join, hl]
  split_ifs
  · exact ⟨_, rfl, by simp only [List.length_append, List.length_cons, List.length_take, List.length_drop]; omega⟩
  · refine ⟨_, List.dropLast_append_of_ne_nil (by simp), ?_⟩
    simp only [List.length_dropLast, List.length_append, List.length_cons, List.length_take, List.length_drop]; omega

/-- With a reply queued, a notice raised leaves what stands in the queues in its place (R195, R196). -/
theorem notify_queuesKept {s : State} {f : Option Sending} {rs : List Reply} {ns : List Notice} (hr : rs ≠ [])
    (hs : s.queuesKept f rs ns) (code : Byte) (payload : List Byte) (cut : Bool) :
    (s.notify code payload cut).queuesKept f rs ns := by
  obtain ⟨hf, ⟨more, hm⟩, later, hn, hk⟩ := hs
  have hp := Nat.le_trans (atMost_le (s.hpt.passable s.raised ⟨code, payload⟩) (Config.noticePlace s.fresh))
    (Nat.le_trans (passable_le ..) hk)
  obtain ⟨l, hl, hlen⟩ := join_later hn ⟨code, payload⟩ hp
  have hq := notify_queued (s := s) (by simp [hm, hr]) code payload cut
  refine ⟨?_, ⟨more, (notify_replies s code payload cut).1.trans hm⟩, l, hq ▸ hl, ?_⟩
  · rw [hq]; unfold Hpt.join; split <;> exact hf
  · simp only [State.notify, hlen]; split_ifs <;> omega

/-- A reply joins behind what stands in the queues (R194). -/
theorem answer_queuesKept {s : State} {f : Option Sending} {rs : List Reply} {ns : List Notice}
    (hs : s.queuesKept f rs ns) (tag : Byte) (st : Status) (result : List Byte) :
    (s.answer tag st result).queuesKept f rs ns := by
  obtain ⟨hf, ⟨more, hm⟩, later⟩ := hs
  unfold State.answer Hpt.answer
  split
  · exact ⟨hf, ⟨more, hm⟩, later⟩
  · exact ⟨hf, ⟨_, by rw [hm, List.append_assoc]⟩, later⟩

/-- A refusal takes a free place. -/
theorem limits_refuse {s : State} (hs : s.hpt.limits) (hp : s.hpt.placesUsed < Config.replyPlaces) (h : ReqHead)
    (code : Byte) (st : Status) : (s.refuse h code st).hpt.limits := by
  refine ⟨hs.1, ?_, hs.2.2⟩
  simp only [State.refuse, Hpt.enqueue, Hpt.placesUsed, List.length_append, List.length_singleton] at hp ⊢; omega

/-- An acceptance takes a free place and an entry. -/
theorem limits_accepted {s : State} (hs : s.hpt.limits) (hp : s.hpt.placesUsed < Config.replyPlaces) (h : ReqHead)
    (code : Byte) (hn : s.hpt.outstanding.length < Config.maxOutstanding) : (s.accepted h code).hpt.limits := by
  refine ⟨?_, ?_, hs.2.2⟩
  · simp only [State.accepted, List.length_append, List.length_singleton]; omega
  · simp only [State.accepted, Hpt.placesUsed, List.length_append, List.length_singleton] at hp ⊢; omega

/-- A request keeps the limits when its owner does. -/
theorem limits_request {s : State} (hs : s.hpt.limits) (h : ReqHead) (code : Byte) (chk : Option Status)
    (own : State → State) (ho : ∀ t : State, t.hpt.limits → (own t).hpt.limits) :
    (s.request h code chk own).hpt.limits := by
  unfold State.request
  split
  · exact hs
  · rename_i hp
    split
    · exact limits_refuse hs (Nat.not_le.1 hp) h code _
    · rename_i hr
      refine ho _ (limits_accepted hs (Nat.not_le.1 hp) h code ?_)
      by_contra hn
      have hn' := Nat.not_lt.1 hn
      unfold State.refusal at hr
      split_ifs at hr

end Sys2Proof.Machine
end

