-- ==== Sys2Proof/Laws/Frames.lean ====
section
/-! SUPPORT. What the shared operations of the lanes, the loops and the launches can do, said once: whatever property
of a state their elementary updates keep, they keep. Frames (a field unchanged), the host limits and the pool law are
such properties. -/

namespace Sys2Proof.Machine

/-- A property kept by the elementary updates of the lane side: entries of the groups with their records kept, of the
accounts, targets, lanes and loops, the sync unit, replies and notices. -/
structure LaneSide (P : State → Prop) : Prop where
  group : ∀ (s : State) g (e : GroupEntry), e.records = (s.group g).records → P s → P (s.setGroup g e)
  account : ∀ (s : State) g a, P s → P (s.setAccount g a)
  target : ∀ (s : State) t e, P s → P (s.setTarget t e)
  lane : ∀ (s : State) l x, P s → P (s.setLane l x)
  loop : ∀ (s : State) n e, P s → P (s.setLoop n e)
  sync : ∀ (s : State) x, P s → P { s with sau := x }
  notice : ∀ (s : State) c p u, P s → P (s.notify c p u)
  reply : ∀ (s : State) t st r, P s → P (s.answer t st r)
  draw : ∀ (s : State), P s → P s.drawn

/-- A fold of steps that keep a property keeps it. -/
theorem foldl_keeps {α : Type} {P : State → Prop} {f : State → α → State} (h : ∀ s a, P s → P (f s a)) (l : List α)
    (s : State) (hs : P s) : P (l.foldl f s) := by
  induction l generalizing s with
  | nil => exact hs
  | cons a l ih => exact ih _ (h s a hs)

namespace LaneSide

variable {P : State → Prop} (k : LaneSide P) {s : State} (hs : P s)
include k hs

/-! ## Lanes and loops -/

theorem setFlight (l f) : P (s.setFlight l f) := k.lane s l _ hs

theorem onBus (l w) : P (s.onBus l w) := k.lane s l _ hs

theorem appendJob (l j) : P (s.appendJob l j) := k.lane s l _ hs

theorem appendWrite (n kd t reg v) : P (s.appendWrite n kd t reg v) := k.lane s _ _ hs

theorem setLine (l x) : P (s.setLine l x) := by cases l <;> exact k.sync s _ hs

theorem setArm (l) : P (s.setArm l) := k.sync s _ hs

theorem leaveWindows (g) : P (s.leaveWindows g) := k.sync s _ hs

theorem dropQueued (p) : P (s.dropQueued p) := by
  unfold State.dropQueued
  exact foldl_keeps (P := P) (fun s _ h => k.lane s _ _ h) _ _ hs

theorem withdrawLoop (n) : P (s.withdrawLoop n) := k.loop _ n _ (k.dropQueued hs _)

theorem notifyLoop (n e c) : P (s.notifyLoop n e c) := k.notice s _ _ _ hs

theorem startLoop (n) : P (s.startLoop n) := by
  have h := k.appendWrite (k.loop s n (s.loop n).started hs) n .outputSeed (s.loop n).started.cfg.outTarget
    (s.loop n).started.cfg.outReg (s.loop n).started.cfg.initialOutput
  simp only [State.startLoop]
  split
  · exact h
  · exact k.appendWrite h _ _ _ _ _

theorem leaveRun (n st) : P (s.leaveRun n st) := k.loop _ n _ (k.withdrawLoop hs n)

theorem faultLoop (n kd t reg b) : P (s.faultLoop n kd t reg b) := k.notifyLoop (k.leaveRun hs n .faulted) _ _ _

theorem stopLoop (n) : P (s.stopLoop n) := k.loop _ n _ (k.leaveRun hs n .stopped)

theorem loopEdge (line n) : P (s.loopEdge line n) := by
  simp only [State.loopEdge]
  split_ifs
  · exact k.loop s n _ hs
  · exact k.appendJob (k.loop s n _ hs) _ _
  · exact k.loop s n _ hs
  · exact hs

theorem loopsEdge (line) : P (s.loopsEdge line) := by
  unfold State.loopsEdge
  exact foldl_keeps (P := P) (fun _ n h => k.loopEdge h line n) _ _ hs

theorem appendAdjustment (n v) : P (s.appendAdjustment n v) := by
  simp only [State.appendAdjustment]
  split
  · exact k.appendWrite (k.loop s n _ hs) _ _ _ _ _
  · exact k.appendWrite (k.appendWrite (k.loop s n _ hs) _ _ _ _ _) _ _ _ _ _

theorem loopRests (n st e) : P (s.loopRests n st e) := k.notifyLoop (k.loop s n _ hs) _ _ _

theorem adjust (n e) : P (s.adjust n e) := by
  simp only [State.adjust]
  split_ifs
  · exact k.loop s n _ hs
  · exact k.loopRests hs n _ e
  · exact k.appendAdjustment hs n _

theorem decide (n e) : P (s.decide n e) := by
  simp only [State.decide]
  split
  · split_ifs
    · exact k.loopRests hs n _ e
    · exact k.adjust hs n e
  · split_ifs
    · exact k.loopRests hs n _ e
    · exact k.adjust hs n e
  · split_ifs
    · exact k.loop s n _ hs
    · exact k.adjust (k.loop s n _ hs) n e
  · exact hs
  · exact hs

theorem measured (n m) : P (s.measured n m) := k.decide (k.loop s n _ hs) n _

theorem cycleJobEnd (n kd t reg e) : P (s.cycleJobEnd n kd t reg e) := by
  cases e with
  | success v =>
    simp only [State.cycleJobEnd]
    split_ifs
    · exact k.measured hs n v
    · exact k.loop s n _ hs
  | failed r => exact k.faultLoop hs n kd t reg _
  | skipped => exact k.faultLoop hs n kd t reg _
  | dropped => exact k.loop s n _ hs

theorem loopJobEnd (n kd t reg e) : P (s.loopJobEnd n kd t reg e) := by
  have h := k.loop s n { s.loop n with jobsOut := (s.loop n).jobsOut - 1 } hs
  simp only [State.loopJobEnd]
  split_ifs
  · exact h
  · exact k.cycleJobEnd h n kd t reg e

theorem adopt (t w n) : P (s.adopt t w n) := by
  simp only [State.adopt]
  split
  · exact hs
  · split_ifs
    · exact k.loop s n _ hs
    · exact hs

theorem handOn (t w) : P (s.handOn t w) := by
  unfold State.handOn
  exact foldl_keeps (P := P) (fun _ n h => k.adopt h t w n) _ _ hs

theorem applySetpoint (n v) : P (s.applySetpoint n v) := k.loop s n _ hs

/-! ## Launches -/

theorem appendRecords (g i l) : P (s.appendRecords g i l) := by
  induction l generalizing s i with
  | nil => exact hs
  | cons r l ih => exact ih (k.appendJob hs _ _) (i + 1)

theorem launch (e g) : P (s.launch e g) :=
  k.appendRecords (k.account _ g _ (k.group s g ((s.group g).launched e) rfl hs)) g 0 _

theorem complete (g) : P (s.complete g) :=
  k.notice _ _ _ _ (k.leaveWindows (k.group s g
    { s.group g with
      lastOutcome := launchOutcome (s.account g) (s.group g)
      state := if (s.armEntry g).isSome then .armed else .ready } rfl hs) g)

theorem recordEnd (g i e) : P (s.recordEnd g i e) := by
  have h := k.account _ g { s.account g with pending := (s.account g).pending - 1 }
    (k.group s g ((s.group g).counted i e) (by cases e <;> rfl) hs)
  simp only [State.recordEnd]
  split_ifs
  · exact hs
  · exact k.complete h g
  · exact h

theorem recordsWithdrawn (g n) : P (s.recordsWithdrawn g n) := by
  induction n generalizing s with
  | zero => exact hs
  | succ n ih => exact ih (k.recordEnd hs g 0 .withdrawn)

/-! ## Dispatch and the ends of jobs -/

theorem startAttempt (l f) : P (s.startAttempt l f) := k.setFlight hs l _

theorem turnedAway (j) : P (s.turnedAway j) := by
  unfold State.turnedAway
  split
  · exact k.draw _ (k.recordEnd hs _ _ _)
  · exact k.recordEnd hs _ _ _
  · exact k.loopJobEnd hs _ _ _ _ _
  · exact k.reply s _ _ _ hs

theorem skipped (j) : P (s.skipped j) := by
  cases j with
  | record g i r => exact k.recordEnd hs g i _
  | loop n kd t reg v => exact k.loopJobEnd hs n kd t reg _
  | read tag t reg => exact k.reply s tag _ _ hs

theorem dispatchTo (l j t) : P (s.dispatchTo l j t) := by
  simp only [State.dispatchTo]
  split_ifs
  · exact k.turnedAway hs j
  · exact k.skipped hs j
  · exact k.startAttempt hs l _

theorem dispatch (l j) : P (s.dispatch l j) := by
  unfold State.dispatch
  split
  · exact k.setFlight hs l _
  · exact k.recordEnd (k.applySetpoint hs _ _) _ _ _
  · exact k.dispatchTo hs l _ _
  · exact k.dispatchTo hs l _ _
  · exact k.dispatchTo hs l _ _
  · exact k.dispatchTo hs l _ _
  · split_ifs
    · exact k.loopJobEnd hs _ _ _ _ _
    · exact k.dispatchTo hs l _ _
  · exact k.dispatchTo hs l _ _

theorem takeHead (l) : P (s.takeHead l) := by
  unfold State.takeHead
  split
  · exact k.dispatch (k.lane s l _ hs) l _
  · exact hs
  · exact hs

theorem takeHeads (n) : P (s.takeHeads n) := by
  induction n generalizing s with
  | zero => exact hs
  | succ n ih =>
    simp only [State.takeHeads]
    split
    · exact hs
    · exact ih (k.takeHead (k.draw s hs) _)

theorem settleLanes : P s.settleLanes := k.takeHeads hs _

theorem takePast (g l n) : P (State.takePast g l n s) := by
  induction n generalizing s with
  | zero => exact hs
  | succ n ih =>
    simp only [State.takePast]
    split_ifs
    · exact hs
    · exact ih (k.takeHead hs l)

theorem handOver (l g t w) : P (s.handOver l g t w) := by
  unfold State.handOver
  split_ifs
  · exact k.handOn (k.takePast (k.draw s hs) g l _) t w
  · exact k.handOn (k.draw s hs) t w
  · exact k.handOn hs t w

theorem recordOver (l g i r m e) : P (s.recordOver l g i r m e) := by
  have h := k.recordEnd hs g i e
  simp only [State.recordOver]
  split
  · exact h
  · exact k.handOver h _ _ _ _

theorem faultTarget (t r f) : P (s.faultTarget t r f) := by
  simp only [State.faultTarget]
  split_ifs
  · exact hs
  · exact k.notice _ _ _ _ (k.target s t _ hs)

theorem reportFault (f r) : P (s.reportFault f r) := by
  simp only [State.reportFault]
  split
  · exact hs
  · exact k.faultTarget hs _ r f

theorem writeDone (l f) : P (s.writeDone l f) := by
  simp only [State.writeDone]
  split
  · exact k.recordOver hs _ _ _ _ _ _
  · exact k.loopJobEnd hs _ _ _ _ _
  · exact hs

theorem jobFailed (l f r) : P (s.jobFailed l f r) := by
  unfold State.jobFailed
  split
  · exact k.recordOver hs _ _ _ _ _ _
  · exact k.recordEnd hs _ _ _
  · exact k.loopJobEnd hs _ _ _ _ _
  · cases r
    · exact k.reply s _ _ _ hs
    · exact k.reply s _ _ _ hs
    · exact hs

theorem failedForGood (l f r) : P (s.failedForGood l f r) := k.jobFailed (k.reportFault (k.setFlight hs l none) f r) l f r

theorem attemptFailed (l f r) : P (s.attemptFailed l f r) := by
  simp only [State.attemptFailed]
  split_ifs
  · exact k.startAttempt hs l _
  · exact k.failedForGood hs l f r

theorem itemDone (l f) : P (s.itemDone l f) := by
  unfold State.itemDone
  split
  · split_ifs
    · exact k.writeDone (k.setFlight hs l none) l f
    · exact k.recordOver (k.setFlight hs l none) _ _ _ _ _ _
    · exact k.startAttempt hs l _
  · exact k.writeDone (k.setFlight hs l none) l f
  · exact k.writeDone (k.setFlight hs l none) l f
  · exact k.writeDone (k.setFlight hs l none) l f

theorem pollRead (l f g i m e a v) : P (s.pollRead l f g i m e a v) := by
  simp only [State.pollRead]
  split_ifs
  · exact k.recordEnd (k.setFlight hs l none) g i _
  · exact k.recordEnd (k.setFlight hs l none) g i _
  · exact k.setFlight hs l _
  · exact k.recordEnd (k.setFlight hs l none) g i _

theorem readDone (l f v) : P (s.readDone l f v) := by
  unfold State.readDone
  split
  · exact k.pollRead hs l f _ _ _ _ _ v
  · exact hs
  · exact k.loopJobEnd (k.setFlight hs l none) _ _ _ _ _
  · exact k.reply _ _ _ _ (k.setFlight hs l none)

theorem acked (l f d) : P (s.acked l f d) := by
  simp only [State.acked]
  split
  · split_ifs
    · exact k.setFlight hs l _
    · exact k.itemDone hs l f
  · split_ifs
    · exact k.itemDone hs l f
    · exact k.attemptFailed hs l f _
  · exact k.readDone hs l f _
  · exact hs

/-! ## Events of the lanes -/

theorem transactionEnd (l e) : P (Sys2Proof.Machine.transactionEnd l e s) := by
  unfold Sys2Proof.Machine.transactionEnd
  split
  · exact hs
  · cases e with
    | ack d =>
      simp only
      split_ifs
      · exact hs
      · exact k.settleLanes (k.acked (k.onBus hs l _) l _ _)
      · exact hs
    | nak n =>
      simp only
      split_ifs
      · exact hs
      · exact k.settleLanes (k.attemptFailed (k.onBus hs l _) l _ _)
      · exact hs

theorem clockHoldTimeout (l) : P (Sys2Proof.Machine.clockHoldTimeout l s) := by
  unfold Sys2Proof.Machine.clockHoldTimeout
  split
  · exact hs
  · split_ifs
    · exact k.settleLanes (k.attemptFailed (k.draw _ (k.onBus hs l _)) l _ _)
    · exact hs

theorem pollGapExpiry (l) : P (Sys2Proof.Machine.pollGapExpiry l s) := by
  unfold Sys2Proof.Machine.pollGapExpiry
  split
  · exact hs
  · split_ifs
    · exact k.startAttempt hs l _
    · exact hs

theorem waitExpiry (l) : P (Sys2Proof.Machine.waitExpiry l s) := by
  unfold Sys2Proof.Machine.waitExpiry
  split
  · exact k.settleLanes (k.recordEnd (k.setFlight hs l none) _ _ _)
  · exact hs
  · exact hs

/-! ## Partial resets, aborts, edges -/

theorem cutAccounts : P s.cutAccounts := by
  unfold State.cutAccounts
  exact foldl_keeps (P := P) (fun s g h => by
    split_ifs
    · exact k.account s g _ h
    · exact h) _ _ hs

theorem cutJob (j) : P (s.cutJob j) := by
  cases j with
  | record g i r => exact k.recordEnd hs g i _
  | loop n kd t reg v => exact hs
  | read tag t reg => exact k.reply s tag _ _ hs

theorem cutFlight (f) : P (s.cutFlight f) := by
  unfold State.cutFlight
  split
  · exact k.handOn (k.recordEnd hs _ _ _) _ _
  · exact k.cutJob hs _
  · exact k.cutJob hs _
  · exact k.cutJob hs _

theorem cutNext (n l) : P (State.cutNext n s l) := by
  simp only [State.cutNext]
  split
  · exact k.cutFlight (k.lane s l _ hs) _
  · exact k.cutJob (k.lane s l _ hs) _
  · exact hs

theorem cutLanes : P s.cutLanes := by
  unfold State.cutLanes State.cancelLoops
  exact k.draw _ (foldl_keeps (P := P) (fun s n h => k.loop s n _ h) _ _
    (foldl_keeps (P := P) (fun _ l h => k.cutNext h _ l) _ _ (k.cutAccounts hs)))

theorem abort (tag g) : P (s.abort tag g) := by
  unfold State.abort State.abortLanes
  exact k.recordsWithdrawn (k.reply _ tag _ _
    (foldl_keeps (P := P) (fun s l h => k.setFlight h l _) _ _ (k.dropQueued (k.account s g _ hs) _))) g _

theorem overrun (g l n) : P (s.overrun g l n) := k.notice _ _ _ _ (k.group s g { s.group g with overrunSeen := true } rfl hs)

theorem closeWindow (l) : P (s.closeWindow l) := by
  simp only [State.closeWindow]
  split
  · exact hs
  · exact foldl_keeps (P := P) (fun s g h => k.group s g { s.group g with late := true } rfl h) _ _ (k.setLine hs l _)

theorem openWindow (l x) : P (s.openWindow l x) := by
  simp only [State.openWindow]
  split_ifs
  · exact hs
  · exact k.setLine hs l _

theorem edgeBegun (l) : P (s.edgeBegun l) := k.closeWindow (k.setLine hs l _) l

theorem edgeWalked (l) : P (s.edgeWalked l) := by
  simp only [State.edgeWalked]
  exact k.setArm (foldl_keeps (P := P) (fun _ g h => k.overrun h g l _) _ _ hs) _

theorem launchAll (l gs) : P (s.launchAll l gs) := by
  unfold State.launchAll
  exact foldl_keeps (P := P) (fun _ g h => k.launch h _ g) _ _ hs

theorem edgeMade (l) : P (s.edgeMade l) :=
  k.draw _ (k.openWindow (k.launchAll (k.loopsEdge (k.launchAll (k.edgeWalked (k.edgeBegun hs l) l) l _) l) l _) l _)

theorem edge (l) : P (s.edge l) := k.settleLanes (k.edgeMade hs l)

end LaneSide

/-! ## Properties of this kind -/

/-- What the lane side never touches: the pins, the store, the start-up controller, the array, and the queue of
commands. -/
abbrev State.outside (s : State) : Pins × Psc × Suc × Nv × List Instr :=
  (s.pins, s.psc, s.suc, s.nv, s.pending)

/-- The lane side leaves what lies outside it as it is. -/
theorem laneSide_outside (x : Pins × Psc × Suc × Nv × List Instr) : LaneSide fun s => s.outside = x where
  group _ _ _ _ h := h
  account _ _ _ h := h
  target _ _ _ h := h
  lane _ _ _ h := h
  loop _ _ _ h := h
  sync _ _ h := h
  notice _ _ _ _ h := h
  reply _ _ _ _ h := h
  draw _ h := h

/-- The lane side keeps the host limits. -/
theorem laneSide_limits : LaneSide fun s => s.hpt.limits where
  group _ _ _ _ h := h
  account _ _ _ h := h
  target _ _ _ h := h
  lane _ _ _ h := h
  loop _ _ _ h := h
  sync _ _ h := h
  notice _ _ _ _ h := limits_notify h _ _ _
  reply _ _ _ _ h := limits_answer h _ _ _
  draw _ h := h

/-- With a reply queued, the lane side leaves what stands in the Host Port's queues in its place (R195, R196). -/
theorem laneSide_queuesKept {f : Option Sending} {rs : List Reply} {ns : List Notice} (hr : rs ≠ []) :
    LaneSide fun s => s.queuesKept f rs ns where
  group _ _ _ _ h := h
  account _ _ _ h := h
  target _ _ _ h := h
  lane _ _ _ h := h
  loop _ _ _ h := h
  sync _ _ h := h
  notice _ _ _ _ h := notify_queuesKept hr h _ _ _
  reply _ _ _ _ h := answer_queuesKept h _ _ _
  draw _ h := h

/-- The lane side keeps every group's record count and the free count. -/
theorem laneSide_records (n : Nat) (c : Fin 8 → Nat) :
    LaneSide fun s => s.gtb.free = n ∧ ∀ g, (s.group g).records.length = c g where
  group s g e he h := by
    refine ⟨h.1, fun g' => ?_⟩
    rw [State.group_setGroup]
    split_ifs with hg
    · rw [he, ← hg]; exact h.2 g
    · exact h.2 g'
  account _ _ _ h := h
  target _ _ _ h := h
  lane _ _ _ h := h
  loop _ _ _ h := h
  sync _ _ h := h
  notice _ _ _ _ h := h
  reply _ _ _ _ h := h
  draw _ h := h

/-- The lanes settle without touching what lies outside the lane side. -/
theorem settleLanes_outside (s : State) : s.settleLanes.outside = s.outside := (laneSide_outside _).settleLanes rfl

/-- An edge touches nothing outside the lane side. -/
theorem edge_outside (s : State) (l : Line) : (s.edge l).outside = s.outside := (laneSide_outside _).edge rfl l

/-- A cut of the lanes touches nothing outside the lane side. -/
theorem cutLanes_outside (s : State) : s.cutLanes.outside = s.outside := (laneSide_outside _).cutLanes rfl

end Sys2Proof.Machine
end

