-- ==== Sys2Proof/Laws/Memory.lean ====
section
/-! SUPPORT. The array's operations: what a byte reads after each, and that each keeps the canonical form. -/

namespace Sys2Proof.Machine.Memory

/-! ## Reading and writing one byte -/

/-- An address below every listed one reads as erased. -/
theorem read_below (m : List Host.Cell) (a : Nat) (h : ∀ c ∈ m, a < c.1) : read m a = 0xFF#8 := by
  induction m with
  | nil => rfl
  | cons c m ih =>
    have hc := h c (by simp)
    rw [read, if_neg (by omega)]
    exact ih fun d hd => h d (List.mem_cons_of_mem _ hd)

/-- A byte reads what was written to it, and every other byte as before. -/
theorem read_write (m : List Host.Cell) (hm : m.Pairwise fun a b => a.1 < b.1) (a : Nat) (b : Byte) (x : Nat) :
    read (write m a b) x = if x = a then b else read m x := by
  induction m with
  | nil => by_cases h : b = 0xFF#8 <;> by_cases hx : x = a <;> simp [write, read, h, hx, eq_comm (a := a)]
  | cons c m ih =>
    have hl := (List.pairwise_cons.1 hm).1
    have ih := ih (List.pairwise_cons.1 hm).2
    by_cases h1 : a < c.1
    · have hb : read (c :: m) a = 0xFF#8 := by
        refine read_below _ _ fun d hd => ?_
        rcases List.mem_cons.1 hd with rfl | hd
        · exact h1
        · exact lt_trans h1 (hl d hd)
      by_cases h : b = 0xFF#8
      · by_cases hx : x = a
        · subst hx; simp [write, h1, h, hb]
        · simp [write, h1, h, hx]
      · by_cases hx : x = a
        · subst hx; simp [write, h1, h, read]
        · simp [write, h1, h, hx, read, Ne.symm hx]
    · by_cases h2 : a = c.1
      · by_cases h : b = 0xFF#8
        · by_cases hx : x = a
          · subst hx
            simp only [write, if_neg h1, if_pos h2, if_pos h, if_true]
            exact (read_below m x fun d hd => h2 ▸ hl d hd).trans h.symm
          · have hc : c.1 ≠ x := fun e => hx (e.symm.trans h2.symm)
            simp [write, h2, h, read, hc, h2 ▸ hx]
        · by_cases hx : x = a
          · subst hx; simp [write, h2, h, read]
          · have hc : c.1 ≠ x := fun e => hx (e.symm.trans h2.symm)
            simp [write, h2, h, read, hc, h2 ▸ hx]
      · by_cases hc : c.1 = x
        · have : x ≠ a := fun e => h2 (e.symm.trans hc.symm)
          rw [write, if_neg h1, if_neg h2, read, if_pos hc, read, if_pos hc, if_neg this]
        · rw [write, if_neg h1, if_neg h2, read, if_neg hc, read, if_neg hc, ih]

/-- Every cell a write lists was listed before, or is the one written and not erased. -/
theorem mem_write {m : List Host.Cell} {a : Nat} {b : Byte} {d : Host.Cell} (h : d ∈ write m a b) :
    d ∈ m ∨ d = (a, b) ∧ b ≠ 0xFF#8 := by
  induction m with
  | nil => by_cases hb : b = 0xFF#8 <;> simp_all [write]
  | cons c m ih =>
    unfold write at h
    split at h
    · split at h <;> (simp_all; try tauto)
    · split at h
      · split at h <;> (simp_all; try tauto)
      · rcases List.mem_cons.1 h with rfl | h
        · simp
        · rcases ih h with h | h <;> simp [h]

/-- A write keeps the canonical form. -/
theorem wf_write {m : List Host.Cell} (hm : wf m) (a : Nat) (b : Byte) : wf (write m a b) := by
  constructor
  · obtain ⟨hp, -⟩ := hm
    induction m with
    | nil => by_cases hb : b = 0xFF#8 <;> simp [write, hb]
    | cons c m ih =>
      obtain ⟨hl, ht⟩ := List.pairwise_cons.1 hp
      unfold write
      split
      · split
        · exact hp
        · refine List.pairwise_cons.2 ⟨fun d hd => ?_, hp⟩
          rcases List.mem_cons.1 hd with rfl | hd
          · assumption
          · exact lt_trans ‹_› (hl d hd)
      · split
        · split
          · exact ht
          · exact List.pairwise_cons.2 ⟨fun d hd => by have := hl d hd; simp only; omega, ht⟩
        · refine List.pairwise_cons.2 ⟨fun d hd => ?_, ih ht⟩
          rcases mem_write hd with hd | ⟨rfl, -⟩
          · exact hl d hd
          · simp only; omega
  · intro d hd
    rcases mem_write hd with hd | ⟨rfl, hb⟩
    · exact hm.2 d hd
    · exact hb

/-- Listed cells read as listed, in canonical form. -/
theorem read_of_mem {m : List Host.Cell} (hm : m.Pairwise fun a b => a.1 < b.1) {c : Host.Cell} (h : c ∈ m) :
    read m c.1 = c.2 := by
  induction m with
  | nil => cases h
  | cons d m ih =>
    obtain ⟨hl, ht⟩ := List.pairwise_cons.1 hm
    rcases List.mem_cons.1 h with rfl | h
    · simp [read]
    · have := hl c h
      rw [read, if_neg (by omega)]
      exact ih ht h

/-- An address no cell lists reads as erased. -/
theorem read_of_not_mem {m : List Host.Cell} {a : Nat} (h : ∀ c ∈ m, c.1 ≠ a) : read m a = 0xFF#8 := by
  induction m with
  | nil => rfl
  | cons d m ih =>
    rw [read, if_neg (h d (by simp))]
    exact ih fun c hc => h c (List.mem_cons_of_mem _ hc)

/-! ## Programming -/

/-- Programming clears bits of one byte only (R129). -/
theorem read_program (m : List Host.Cell) (hm : wf m) (a : Nat) (b : Byte) (x : Nat) :
    read (program m a b) x = if x = a then read m a &&& b else read m x := read_write m hm.1 a _ x

theorem wf_program {m : List Host.Cell} (hm : wf m) (a : Nat) (b : Byte) : wf (program m a b) := wf_write hm a _

theorem wf_programAll {m : List Host.Cell} (hm : wf m) (a : Nat) (l : List Byte) : wf (programAll m a l) := by
  induction l generalizing m a with
  | nil => exact hm
  | cons b l ih => exact ih (wf_program hm a b) (a + 1)

/-- Programming bytes at rising addresses leaves every other byte as it was. -/
theorem read_programAll_outside (m : List Host.Cell) (hm : wf m) (a : Nat) (l : List Byte) (x : Nat)
    (hx : x < a ∨ a + l.length ≤ x) : read (programAll m a l) x = read m x := by
  induction l generalizing m a with
  | nil => rfl
  | cons b l ih =>
    rw [programAll, ih (program m a b) (wf_program hm a b) (a + 1) (by simp only [List.length_cons] at hx; omega),
      read_program m hm, if_neg (by simp only [List.length_cons] at hx; omega)]

/-- Programming bytes at rising addresses clears in each byte the bits its value has clear (R129). -/
theorem read_programAll (m : List Host.Cell) (hm : wf m) (a : Nat) (l : List Byte) (i : Nat) (hi : i < l.length) :
    read (programAll m a l) (a + i) = read m (a + i) &&& l[i] := by
  induction l generalizing m a i with
  | nil => simp at hi
  | cons b l ih =>
    cases i with
    | zero =>
      rw [programAll, read_programAll_outside _ (wf_program hm a b) _ _ _ (by omega), read_program m hm]
      simp
    | succ i =>
      have := ih (program m a b) (wf_program hm a b) (a + 1) i (by simpa using hi)
      rw [programAll, show a + (i + 1) = a + 1 + i by omega, this, read_program m hm, if_neg (by omega)]
      simp

/-- A run of bytes reads byte by byte. -/
theorem getElem?_readAll (m : List Host.Cell) (a n i : Nat) :
    (readAll m a n)[i]? = if i < n then some (read m (a + i)) else none := by
  induction n generalizing a i with
  | zero => simp [readAll]
  | succ n ih =>
    cases i with
    | zero => simp [readAll]
    | succ i =>
      simp only [readAll, List.getElem?_cons_succ, ih, Nat.add_lt_add_iff_right]
      rw [show a + 1 + i = a + (i + 1) by omega]

@[simp] theorem length_readAll (m : List Host.Cell) (a n : Nat) : (readAll m a n).length = n := by
  induction n generalizing a with
  | zero => rfl
  | succ n ih => simp [readAll, ih]

/-- Bytes programmed into an erased array read back. -/
theorem readAll_programAll_nil (a : Nat) (l : List Byte) (i n : Nat) (h : i + n ≤ l.length) :
    readAll (programAll [] a l) (a + i) n = (l.drop i).take n := by
  apply List.ext_getElem?
  intro k
  rw [getElem?_readAll, List.getElem?_take]
  split
  · rename_i hk
    rw [Nat.add_assoc, read_programAll [] ⟨.nil, by simp⟩ a l (i + k) (by omega), List.getElem?_drop,
      List.getElem?_eq_getElem (by omega)]
    exact congrArg some (BitVec.allOnes_and (x := l[i + k]))
  · rfl

/-! ## Erasing -/

/-- Dropping cells keeps the canonical form. -/
theorem wf_filter {m : List Host.Cell} (hm : wf m) (p : Host.Cell → Bool) : wf (m.filter p) :=
  ⟨hm.1.filter p, fun c hc => hm.2 c (List.mem_of_mem_filter hc)⟩

theorem wf_eraseUnit {m : List Host.Cell} (hm : wf m) (u : Nat) : wf (eraseUnit m u) := wf_filter hm _

/-- An erase makes its unit read 0xFF and leaves every other byte as it was (R130). -/
theorem read_eraseUnit (m : List Host.Cell) (hm : wf m) (u x : Nat) :
    read (eraseUnit m u) x = if x / Config.unitBytes = u then 0xFF#8 else read m x := by
  by_cases hx : x / Config.unitBytes = u
  · rw [if_pos hx]
    refine read_of_not_mem fun c hc e => ?_
    have := (List.mem_filter.1 hc).2
    simp [e, hx] at this
  · rw [if_neg hx]
    by_cases h : ∃ c ∈ m, c.1 = x
    · obtain ⟨c, hc, rfl⟩ := h
      rw [read_of_mem hm.1 hc]
      exact read_of_mem (wf_eraseUnit hm u).1 (List.mem_filter.2 ⟨hc, by simpa using hx⟩)
    · have h' : ∀ c ∈ m, c.1 ≠ x := fun c hc e => h ⟨c, hc, e⟩
      rw [read_of_not_mem h', eraseUnit, read_of_not_mem fun c hc => h' c (List.mem_of_mem_filter hc)]

theorem wf_residue {m : List Host.Cell} (hm : wf m) (u : Nat) (l : List (Nat × Byte)) : wf (residue m u l) := by
  induction l generalizing m with
  | nil => exact hm
  | cons c l ih =>
    rw [residue]
    split
    · exact ih (wf_write hm _ _)
    · exact ih hm

/-- What an erase is found to have left lies inside its unit. -/
theorem read_residue_outside (m : List Host.Cell) (hm : wf m) (u : Nat) (l : List (Nat × Byte)) (x : Nat)
    (hx : x / Config.unitBytes ≠ u) : read (residue m u l) x = read m x := by
  induction l generalizing m with
  | nil => rfl
  | cons c l ih =>
    rw [residue]
    split
    · rename_i hc
      rw [ih _ (wf_write hm _ _), read_write m hm.1, if_neg]
      rintro rfl
      simp only [unitBase, Config.unitBytes] at hx hc
      omega
    · exact ih m hm

/-- An offset no cell names reads as before. -/
theorem read_residue_unnamed (m : List Host.Cell) (hm : wf m) (u : Nat) (l : List (Nat × Byte)) (o : Nat)
    (h : ∀ c ∈ l, c.1 ≠ o) : read (residue m u l) (unitBase u + o) = read m (unitBase u + o) := by
  induction l generalizing m with
  | nil => rfl
  | cons c l ih =>
    have hc := h c (by simp)
    have hl := fun d hd => h d (List.mem_cons_of_mem _ hd)
    rw [residue]
    split
    · rw [ih _ (wf_write hm _ _) hl, read_write m hm.1, if_neg (by omega)]
    · exact ih m hm hl

/-- A cell that names its offset alone reads as it says. -/
theorem read_residue_named (m : List Host.Cell) (hm : wf m) (u : Nat) (l : List (Nat × Byte)) (hl : (l.map (·.1)).Nodup)
    (c : Nat × Byte) (hc : c ∈ l) (ho : c.1 < Config.unitBytes) : read (residue m u l) (unitBase u + c.1) = c.2 := by
  induction l generalizing m with
  | nil => cases hc
  | cons d l ih =>
    obtain ⟨hd, hl⟩ := List.nodup_cons.1 hl
    rw [residue]
    rcases List.mem_cons.1 hc with rfl | hc
    · rw [if_pos ho, read_residue_unnamed _ (wf_write hm _ _), read_write m hm.1, if_pos rfl]
      exact fun x hx e => hd (List.mem_map.2 ⟨x, hx, e⟩)
    · split
      · exact ih _ (wf_write hm _ _) hl hc
      · exact ih m hm hl hc

theorem wf_clearMarker {m : List Host.Cell} (hm : wf m) (u : Nat) : wf (clearMarker m u) := wf_programAll hm _ _

/-- The array as delivered has the canonical form. -/
theorem wf_delivered : wf Nv.delivered.mem := ⟨.nil, by simp [Nv.delivered]⟩

/-! ## An erase that does not verify (R155, R157, R161, R163) -/

/-- What a failed erase leaves is in canonical form. -/
theorem wf_eraseFailed {m : List Host.Cell} (hm : wf m) (u : Nat) (l : List (Nat × Byte)) : wf (eraseFailed m u l) := by
  have h := fun l => wf_residue (wf_eraseUnit hm u) u l
  unfold eraseFailed
  simp only
  split_ifs
  · exact h _
  · exact wf_write (h _) _ _
  · exact h _

/-- A failed erase leaves every other unit as it was. -/
theorem read_eraseFailed_outside (m : List Host.Cell) (hm : wf m) (u : Nat) (l : List (Nat × Byte)) (x : Nat)
    (hx : x / Config.unitBytes ≠ u) : read (eraseFailed m u l) x = read m x := by
  have h : ∀ l, read (residue (eraseUnit m u) u l) x = read m x := fun l => by
    rw [read_residue_outside _ (wf_eraseUnit hm u) u l x hx, read_eraseUnit m hm, if_neg hx]
  unfold eraseFailed
  simp only
  split_ifs
  · exact h _
  · rw [read_write _ (wf_residue (wf_eraseUnit hm u) u l).1, if_neg, h]
    rintro rfl
    simp only [unitBase, Config.unitBytes] at hx
    omega
  · exact h _

/-- A byte of the erased unit reads 0xFF. -/
theorem read_eraseUnit_inside (m : List Host.Cell) (hm : wf m) (u o : Nat) (ho : o < Config.unitBytes) :
    read (eraseUnit m u) (unitBase u + o) = 0xFF#8 := by
  rw [read_eraseUnit m hm, if_pos]
  simp only [unitBase, Config.unitBytes] at ho ⊢
  omega

/-- A failed erase of the setup area leaves its header erased (R163). -/
theorem read_eraseFailed_header (m : List Host.Cell) (hm : wf m) (l : List (Nat × Byte)) (o : Nat)
    (ho : o < Config.setupHeaderBytes) :
    read (eraseFailed m Config.setupUnit l) (unitBase Config.setupUnit + o) = 0xFF#8 := by
  rw [eraseFailed, if_pos rfl, read_residue_unnamed _ (wf_eraseUnit hm _), read_eraseUnit_inside m hm]
  · exact lt_trans ho (by decide)
  · intro c hc e
    have := (List.mem_filter.1 hc).2
    simp only [decide_eq_true_eq] at this
    omega

/-- The cells that a failed erase leaves alone: those of the setup area past its header, and those of a slot but for the
last byte of its marker. -/
def eraseKeeps (u o : Nat) : Prop := if u = Config.setupUnit then Config.setupHeaderBytes ≤ o else o ≠ 3

/-- A cell that the verify found is left as found. -/
theorem read_eraseFailed_named (m : List Host.Cell) (hm : wf m) (u : Nat) (l : List (Nat × Byte))
    (hl : (l.map (·.1)).Nodup) (c : Nat × Byte) (hc : c ∈ l) (ho : c.1 < Config.unitBytes) (hk : eraseKeeps u c.1) :
    read (eraseFailed m u l) (unitBase u + c.1) = c.2 := by
  have hw := wf_eraseUnit hm u
  unfold eraseKeeps at hk
  unfold eraseFailed
  simp only
  split_ifs at hk ⊢
  · exact read_residue_named _ hw _ _ (hl.sublist (List.filter_sublist.map _)) c
      (List.mem_filter.2 ⟨hc, by simpa using hk⟩) ho
  · rw [read_write _ (wf_residue hw u l).1, if_neg (by omega)]
    exact read_residue_named _ hw _ _ hl c hc ho
  · exact read_residue_named _ hw _ _ hl c hc ho

/-- A byte that the verify found erased is left erased. -/
theorem read_eraseFailed_unnamed (m : List Host.Cell) (hm : wf m) (u : Nat) (l : List (Nat × Byte)) (o : Nat)
    (ho : o < Config.unitBytes) (h : ∀ c ∈ l, c.1 ≠ o) : read (eraseFailed m u l) (unitBase u + o) = 0xFF#8 := by
  have hw := wf_eraseUnit hm u
  have hr := fun l h => (read_residue_unnamed _ hw u l o h).trans (read_eraseUnit_inside m hm u o ho)
  unfold eraseFailed
  simp only
  split_ifs
  · exact hr _ fun c hc => h c (List.mem_of_mem_filter hc)
  · rw [read_write _ (wf_residue hw u l).1, hr l h, ite_self]
  · exact hr l h

end Sys2Proof.Machine.Memory

namespace Sys2Proof.Machine

/-- A run of bytes that each read 0xFF is erased. -/
theorem allErased_readAll {m : List Host.Cell} {a n : Nat} (h : ∀ k < n, Memory.read m (a + k) = 0xFF#8) :
    allErased (Memory.readAll m a n) = true := by
  refine List.all_eq_true.2 fun b hb => ?_
  obtain ⟨k, hk⟩ := List.mem_iff_getElem?.1 hb
  rw [Memory.getElem?_readAll] at hk
  split at hk
  · rw [h k ‹_›] at hk
    cases hk
    rfl
  · cases hk

/-- A byte of a header is the byte of the unit. -/
theorem byteAt_headerOf (m : List Host.Cell) (u o : Nat) (ho : o < Config.headerBytes) :
    byteAt (headerOf m u) o = Memory.read m (unitBase u + o) := by
  rw [byteAt, List.getD_eq_getElem?_getD, headerOf, Memory.getElem?_readAll, if_pos ho, Option.getD_some]

/-- A unit that holds an image begins with the slot marker (R134). -/
theorem imageAccepted_marker {m : List Host.Cell} {u : Nat} (h : imageAccepted m u = true) (k : Nat) (hk : k < 4) :
    Memory.read m (unitBase u + k) = byteAt (valBytes slotMarker) k := by
  have hv := valBytes_valAt (headerOf m u) 0
  rw [(of_decide_eq_true h).1] at hv
  rw [hv, ← byteAt_headerOf m u k (lt_trans hk (by decide))]
  match k, hk with
  | 0, _ | 1, _ | 2, _ | 3, _ => simp [byteAt]

/-- A unit whose last marker byte reads erased holds no image (R134). -/
theorem imageAccepted_markerErased (m : List Host.Cell) (u : Nat) (h : Memory.read m (unitBase u + 3) = 0xFF#8) :
    imageAccepted m u = false := by
  refine Bool.eq_false_iff.2 fun hi => ?_
  have := imageAccepted_marker hi 3 (by decide)
  rw [h] at this
  exact absurd this (by decide)

/-- A failed erase leaves no slot valid (R157). -/
theorem imageAccepted_eraseFailed (m : List Host.Cell) (hm : Memory.wf m) (u : Nat) (l : List (Nat × Byte))
    (hu : u ≠ Config.setupUnit) : imageAccepted (Memory.eraseFailed m u l) u = false := by
  unfold Memory.eraseFailed
  simp only
  rw [if_neg hu]
  split_ifs with h
  · refine imageAccepted_markerErased _ _ ?_
    rw [Memory.read_write _ (Memory.wf_residue (Memory.wf_eraseUnit hm u) u l).1, if_pos rfl]
  · simpa using h

/-- A slot after a failed erase of it is classified blank or invalid (R157). -/
theorem classifySlot_eraseFailed (m : List Host.Cell) (hm : Memory.wf m) (i : Fin 32) (l : List (Nat × Byte)) :
    classifySlot (Memory.eraseFailed m i.val l) i = .blank ∨ classifySlot (Memory.eraseFailed m i.val l) i = .invalid := by
  have h := imageAccepted_eraseFailed m hm i.val l (by have := i.isLt; simp only [Config.setupUnit]; omega)
  simp only [classifySlot, h]
  split_ifs <;> simp_all

/-- The start after a failed erase of the setup area reads BLANK (R163, R180). -/
theorem readSetup_eraseFailed (m : List Host.Cell) (hm : Memory.wf m) (l : List (Nat × Byte)) :
    readSetup (Memory.eraseFailed m Config.setupUnit l) = (.blank, none) := by
  have h := allErased_readAll fun k hk => Memory.read_eraseFailed_header m hm l k hk
  simp only [readSetup]
  rw [if_pos h]

/-- An abandoned erase keeps the canonical form. -/
theorem wf_abandonErase {m : List Host.Cell} (hm : Memory.wf m) (u k : Nat) : Memory.wf (abandonErase m u k) := by
  have key : ∀ c d : Host.Cell, (∀ past : Bool,
      (if c.1 / Config.unitBytes ≠ u then some c
      else if c.1 % Config.unitBytes < Config.pageBytes then if past then none else some c
      else
        let b := c.2 ||| Config.erasedBits k c.1
        if b = 0xFF#8 then none else some (c.1, b)) = some d → c.2 ≠ 0xFF#8 → d.1 = c.1 ∧ d.2 ≠ 0xFF#8) := by
    intro c d past h hc
    split at h
    · cases h; exact ⟨rfl, hc⟩
    · split at h
      · split at h
        · cases h
        · cases h; exact ⟨rfl, hc⟩
      · simp only at h
        split at h
        · cases h
        · cases h; exact ⟨rfl, ‹_›⟩
  constructor
  · unfold abandonErase
    rw [List.pairwise_filterMap]
    refine hm.1.imp_of_mem fun {c d} hc hd hcd c' hc' d' hd' => ?_
    rw [(key c c' _ hc' (hm.2 c hc)).1, (key d d' _ hd' (hm.2 d hd)).1]
    exact hcd
  · intro d hd
    obtain ⟨c, hc, h⟩ := List.mem_filterMap.1 hd
    exact (key c d _ h (hm.2 c hc)).2

/-- Abandoned store work keeps the array's canonical form. -/
theorem wf_abandoned {nv : Nv} (h : Memory.wf nv.mem) (e : Engine) (k : Nat) : Memory.wf (nv.abandoned e k).mem := by
  cases e with
  | readingUnderSuspend op x => cases x <;> first | exact wf_abandonErase h _ _ | exact h
  | programming w pages =>
    cases pages with
    | nil => exact h
    | cons p l =>
      simp only [Nv.abandoned]
      split_ifs
      · exact Memory.wf_programAll h _ _
      · exact h
  | _ => first | exact h | exact wf_abandonErase h _ _

end Sys2Proof.Machine
end

