-- ==== Sys2Proof/Laws/Whole.lean ====
section
/-! SUPPORT. What any command can do, said once: a property kept by the part's elementary updates is kept by every
command (`Whole.exec`). -/

namespace Sys2Proof.Machine

/-- A property kept by every elementary update of the part, under the condition each is made with. -/
structure Whole (P : State → Prop) : Prop extends LaneSide P where
  store : ∀ (s : State) x, P s → P { s with psc := x }
  startup : ∀ (s : State) x, P s → P { s with suc := x }
  array : ∀ (s : State) (x : Nv), (Memory.wf s.nv.mem → Memory.wf x.mem) → P s → P { s with nv := x }
  own : ∀ (s : State) p k, P s → P { s with pins := p, fresh := k }
  records : ∀ (s : State) g l, l.length ≤ s.gtb.free + (s.group g).records.length → P s → P (s.setRecords g l)
  config : ∀ (s : State) a b c d, P s → P { s with lanes := a, tgt := b, sau := c, tlu := d }
  clear : ∀ s : State, P s → P s.resetGroups
  blocks : ∀ (s : State) c r, P s → P (s.blocksReset c r)
  refuse : ∀ (s : State) h c st, s.hpt.placesUsed < Config.replyPlaces → P s → P (s.refuse h c st)
  accept : ∀ (s : State) h c, s.hpt.placesUsed < Config.replyPlaces →
    s.hpt.outstanding.length < Config.maxOutstanding → P s → P (s.accepted h c)
  replyFull : ∀ (s : State) t b f, P s → P { s with hpt := s.hpt.answer t b f }
  port : ∀ (s : State) a b c, P s → P { s with hpt := { s.hpt with rx := a, gapTimer := b, sending := c } }
  head : ∀ s : State, P s → P { s with hpt := s.hpt.takeNotice }
  placed : ∀ s : State, P s → P s.noticesPlaced
  arbiter : ∀ s : State, P s → P s.arbitrated

namespace Whole

variable {P : State → Prop} (k : Whole P) {s : State} (hs : P s)
include k hs

/-! ## Groups and the store -/

theorem emptyGroup (g) : P (s.emptyGroup g) :=
  k.group _ g { ((s.setRecords g []).group g).cleared with state := .empty } rfl (k.records s g [] (Nat.zero_le _) hs)

theorem release (g) : P (s.release g) := by
  unfold State.release
  split_ifs
  · exact k.emptyGroup hs g
  · exact hs

theorem unpin (g) : P (s.unpin g) := k.group s g { s.group g with pins := (s.group g).pins - 1 } rfl hs

theorem reserve (g) : P (s.reserve g) := by
  unfold State.reserve
  split_ifs
  · exact k.group s g { s.group g with state := .loading } rfl hs
  · exact hs

theorem replyTo (op st r) : P (s.replyTo op st r) := by
  unfold State.replyTo
  split
  · exact hs
  · exact k.reply s _ _ _ hs

theorem setEngine (e) : P (s.setEngine e) := k.store s _ hs

theorem dequeue (op) : P (s.dequeue op) := k.store s _ hs

theorem setMem (m) (h : Memory.wf s.nv.mem → Memory.wf m) : P (s.setMem m) := k.array s _ h hs

theorem setOpSlot (op x) : P (s.setOpSlot op x) := by
  unfold State.setOpSlot
  split
  · exact k.store s _ hs
  · exact k.store s _ hs
  · exact k.store s _ hs
  · exact hs
  · exact k.store s _ hs

theorem startErase (w) : P (s.startErase w) :=
  k.setEngine (k.setOpSlot (k.setMem hs _ fun h => Memory.wf_clearMarker h _) _ _) _

theorem startOp (op) : P (s.startOp op) := by
  unfold State.startOp
  split
  · exact k.setEngine hs _
  · split
    · exact k.replyTo (k.unpin hs _) _ _ _
    · exact k.startErase (k.unpin hs _) _
  · split
    · exact k.replyTo hs _ _ _
    · exact k.startErase hs _
  · exact k.startErase hs _
  · split_ifs
    · exact k.replyTo hs _ _ _
    · exact k.setEngine hs _

theorem chooseFrom (n) : P (s.chooseFrom n) := by
  induction n generalizing s with
  | zero => exact hs
  | succ n ih =>
    simp only [State.chooseFrom]
    split
    · exact ih (k.startOp (k.dequeue hs _) _)
    · exact hs

theorem choose : P s.choose := k.chooseFrom hs _

theorem judge : P s.judge := by
  unfold State.judge
  split
  · split_ifs
    · exact k.store s _ hs
    · exact hs
  · exact hs

theorem resume (x) : P (s.resume x) := k.store s _ hs

theorem chooseUnder (x) : P (s.chooseUnder x) := by
  unfold State.chooseUnder
  split
  · exact k.setEngine (k.dequeue hs _) _
  · exact k.resume hs x

theorem suspend (x) : P (s.suspend x) := k.chooseUnder (k.store s _ hs) x

theorem engineFree : P s.engineFree := k.choose (k.store s _ hs)

theorem storeFault (w b) : P (s.storeFault w b) := k.engineFree (k.replyTo (k.setOpSlot hs _ _) _ _ _)

theorem nextPages (w l) : P (s.nextPages w l) := by
  unfold State.nextPages
  split_ifs
  · exact k.suspend hs _
  · exact k.store s _ hs

theorem saveDone (w) : P (s.saveDone w) := by
  unfold State.saveDone
  split
  · exact k.engineFree (k.replyTo (k.store s _ hs) _ _ _)
  · exact k.engineFree (k.replyTo hs _ _ _)

theorem accepted (x o) : P (s.accept x o) := k.judge (k.choose (k.store s _ hs))

theorem eraseComplete (l) : P (Sys2Proof.Machine.eraseComplete l s) := by
  unfold Sys2Proof.Machine.eraseComplete
  split
  · rename_i w _
    have h := k.setMem hs (Memory.residue (Memory.eraseUnit s.nv.mem w.op.unit) w.op.unit l)
      fun h => Memory.wf_residue (Memory.wf_eraseUnit h _) _ _
    simp only
    split_ifs
    · exact k.storeFault (k.setMem hs _ fun h => Memory.wf_eraseFailed h _ _) _ _
    · split
      · exact k.engineFree (k.replyTo (k.store _ _ h) _ _ _)
      · exact k.nextPages h _ _
  · exact hs

theorem pageProgramComplete (l) : P (Sys2Proof.Machine.pageProgramComplete l s) := by
  unfold Sys2Proof.Machine.pageProgramComplete
  split
  · rename_i w p pages _
    have h := k.setMem hs (Memory.programAll s.nv.mem (pageBase w.op.unit p.val)
      ((l.getD (imagePage w.image p.val)).take Config.pageBytes)) fun h => Memory.wf_programAll h _ _
    simp only
    split_ifs
    · exact k.storeFault h _ _
    · exact k.saveDone h _
    · exact k.nextPages h _ _
  · exact hs

theorem fuseProgramComplete (b) : P (Sys2Proof.Machine.fuseProgramComplete b s) := by
  unfold Sys2Proof.Machine.fuseProgramComplete
  split
  · rename_i op slot _
    have h := k.array s { s.nv with locks := s.nv.locks.set slot (s.nv.locks[slot] || b) } id hs
    simp only
    split_ifs
    · exact k.engineFree (k.replyTo (k.store _ _ h) _ _ _)
    · exact k.engineFree (k.replyTo h _ _ _)
  · exact hs

theorem suspendEffect : P (Sys2Proof.Machine.suspendEffect s) := by
  unfold Sys2Proof.Machine.suspendEffect
  split
  · split_ifs
    · exact hs
    · exact k.suspend hs _
    · exact k.store s _ hs
  · exact hs

theorem resumeGuardExpiry : P (Sys2Proof.Machine.resumeGuardExpiry s) := by
  unfold Sys2Proof.Machine.resumeGuardExpiry
  split_ifs
  · exact k.judge (k.store s _ hs)
  · exact hs

theorem cancelOp (op) : P (s.cancelOp op) := by
  unfold State.cancelOp
  split
  · exact k.replyTo (k.unpin hs _) _ _ _
  · exact k.replyTo (k.release hs _) _ _ _
  · exact hs
  · exact hs
  · exact hs

theorem stopLoad : P s.stopLoad := by
  unfold State.stopLoad
  split
  · exact k.setEngine hs _
  · exact k.resume hs _
  · exact hs

theorem cancelStore : P s.cancelStore := by
  unfold State.cancelStore
  exact k.choose (k.stopLoad (foldl_keeps (P := P) (fun _ op h => k.cancelOp h op) _ _ (k.store s _ hs)))

/-! ## Loads -/

theorem loadGroup (g e) (he : ∀ i l, e = .filled i l → l.length ≤ s.gtb.free) : P (s.loadGroup g e) := by
  unfold State.loadGroup
  split
  · rename_i i l
    split_ifs
    · have hl := he i l rfl
      exact k.group _ g { (s.setRecords g l).group g with state := .ready } rfl (k.records s g l (by omega) hs)
    · exact hs
  · exact k.release hs g
  · exact k.release hs g
  · exact k.release hs g

omit k hs in
/-- A load fills no more records than are free (R159). -/
theorem loadResult_filled (slot : Fin 32) (i : SlotInfo) (l : List Record) (h : s.loadResult slot = .filled i l) :
    l.length ≤ s.gtb.free := by
  unfold State.loadResult at h
  split at h
  · cases h
  · split at h
    · cases h
    · split_ifs at h with hl
      cases h
      exact hl
  · cases h
  · cases h

theorem loadEnd (op slot g) : P (s.loadEnd op slot g) := by
  have h : P (s.setSlotState slot (s.loadResult slot).slotState) := k.store s _ hs
  exact k.replyTo (k.loadGroup h g (s.loadResult slot) fun i l he => loadResult_filled (s := s) slot i l he) _ _ _

theorem finishStart (r) : P (s.finishStart r) := k.notice _ _ _ _ (k.startup s _ hs)

theorem armGroup (g l x m) : P (s.armGroup g l x m) := by
  unfold State.armGroup
  exact k.sync _ _ (k.group s g { s.group g with state := .armed } rfl hs)

theorem armStart (d) : P (s.armStart d) := by
  unfold State.armStart
  split_ifs
  · exact k.armGroup hs _ _ _ _
  · exact hs

theorem lastStepDue (r) : P (s.lastStepDue r) := k.startup s _ hs

theorem startLoaded (e) : P (s.startLoaded e) := by
  unfold State.startLoaded
  split
  · exact k.lastStepDue (k.armStart hs _) _
  all_goals exact k.lastStepDue hs _

theorem lastStep : P s.lastStep := by
  unfold State.lastStep
  split
  · exact k.finishStart hs _
  all_goals exact hs

/-- A step on an empty queue keeps the property. -/
theorem idled : P s.idled := by
  unfold State.idled
  split
  · split_ifs
    · exact k.arbiter _ (k.finishStart hs _)
    · exact hs
  all_goals exact hs

theorem startStep (e) : P (s.startStep e) := by
  unfold State.startStep
  split_ifs
  · exact k.startLoaded hs e
  · exact k.lastStep (k.startLoaded hs e)

theorem loadOver (op) : P (s.loadOver op) := by
  unfold State.loadOver
  split
  · simp only
    split_ifs
    · exact k.startStep (k.loadEnd hs _ _ _) _
    · exact k.loadEnd hs _ _ _
  all_goals exact hs

theorem imageReadComplete : P (Sys2Proof.Machine.imageReadComplete s) := by
  unfold Sys2Proof.Machine.imageReadComplete
  split
  · exact k.engineFree (k.loadOver hs _)
  · exact k.chooseUnder (k.loadOver hs _) _
  · exact hs

/-! ## The start sequence -/

theorem abandonStore : P s.abandonStore := by
  have h := k.own _ s.pins (s.fresh + 1) (k.array s (s.nv.abandoned s.psc.engine s.fresh) (fun h => wf_abandoned h _ _) hs)
  exact h

theorem beginStart (c x) : P (s.beginStart c x) := by
  have h := k.abandonStore hs
  exact k.store _ _ (k.blocks _ _ _ (k.own _ { s.abandonStore.pins with straps := x } s.abandonStore.fresh h))

theorem hold (b) : P (s.hold b) := k.blocks _ _ _ (k.abandonStore hs)

theorem withPins (p) : P { s with pins := p } := k.own s p s.fresh hs

theorem powerOn (x) : P (Sys2Proof.Machine.powerOn x s) := by
  have h := k.withPins hs { s.pins with power := true, straps := x }
  unfold Sys2Proof.Machine.powerOn
  split
  · exact k.beginStart h .power x
  · exact k.hold h true

theorem powerFail : P (Sys2Proof.Machine.powerFail s) := by
  have h := k.withPins hs { s.pins with power := false }
  exact k.hold h true

theorem resetnAssert : P (Sys2Proof.Machine.resetnAssert s) := by
  have h := k.withPins hs { s.pins with resetn := false }
  exact k.hold h s.suc.fresh

theorem resetnRelease (x) : P (Sys2Proof.Machine.resetnRelease x s) := by
  have h := k.withPins hs { s.pins with resetn := true, straps := x }
  unfold Sys2Proof.Machine.resetnRelease
  split
  · exact hs
  · split
    · exact k.beginStart h _ x
    · exact h

theorem storeAndStartup (x y) : P { s with psc := x, suc := y } := k.startup { s with psc := x } y (k.store s x hs)

theorem configAndStartup (a b c d x) : P { s with lanes := a, tgt := b, sau := c, tlu := d, suc := x } :=
  k.startup { s with lanes := a, tgt := b, sau := c, tlu := d } x (k.config s a b c d hs)

theorem directoryRebuild : P (Sys2Proof.Machine.directoryRebuild s) := by
  unfold Sys2Proof.Machine.directoryRebuild
  split
  · exact k.storeAndStartup hs _ _
  · exact hs

theorem applySetup (x) : P (s.applySetup x) := k.configAndStartup hs _ _ _ _ _

theorem autostart (n) : P (s.autostart n) := by
  unfold State.autostart
  split_ifs
  · split
    · exact k.startup s _ hs
    · exact k.startup _ _ (k.startLoop hs n)
  · exact k.startup s _ hs

theorem startLoad : P s.startLoad := by
  unfold State.startLoad
  split
  · exact k.accepted (k.startup _ _ (k.reserve hs 0)) _ _
  · exact k.finishStart hs _

theorem setupAreaRead : P (Sys2Proof.Machine.setupAreaRead s) := by
  unfold Sys2Proof.Machine.setupAreaRead
  split_ifs
  · generalize readSetup s.nv.mem = x
    obtain ⟨a, y⟩ := x
    have h : P (s.setSetup a) := k.startup s _ hs
    have h' : P (match y with | none => s.setSetup a | some x => (s.setSetup a).applySetup x) := by
      cases y with
      | none => exact h
      | some x => exact k.applySetup h x
    exact k.settleLanes (k.startLoad (foldl_keeps (P := P) (fun _ n h => k.autostart h n) _ _ h'))
  · exact hs

theorem freed : P s.freed := by
  have h : P { s with hpt := { s.hpt with sending := none } } := k.port s s.hpt.rx s.hpt.gapTimer none hs
  unfold State.freed
  split_ifs
  · exact k.own _ s.pins (s.fresh + 1) (k.head _ h)
  · exact k.own _ s.pins (s.fresh + 1) h
  · exact h

theorem transmitEnd (x) : P (Sys2Proof.Machine.transmitEnd x s) := by
  unfold Sys2Proof.Machine.transmitEnd
  split
  · exact hs
  · split_ifs
    · exact k.beginStart hs _ _
    · exact k.own _ { s.pins with straps := x } s.freed.fresh (k.freed hs)

/-! ## Requests -/

theorem request (h c chk) {own : State → State} (ho : ∀ t, P t → P (own t)) : P (s.request h c chk own) := by
  unfold State.request
  split_ifs with hp
  · exact hs
  · split
    · exact k.refuse s h c _ (Nat.not_le.1 hp) hs
    · rename_i hr
      refine ho _ (k.accept s h c (Nat.not_le.1 hp) ?_ hs)
      by_contra hn
      have hn' := Nat.not_lt.1 hn
      unfold State.refusal at hr
      split_ifs at hr

theorem drawn : P s.drawn := k.own s s.pins (s.fresh + 1) hs

theorem ownGroupOpen (tag g) : P (Sys2Proof.Machine.ownGroupOpen tag g s) := by
  unfold Sys2Proof.Machine.ownGroupOpen
  split
  · exact k.reply s _ _ _ hs
  · rename_i g' _
    split_ifs
    · exact k.reply s _ _ _ hs
    · exact k.reply _ _ _ _ (k.group s g' { s.group g' with state := .opened } rfl hs)

theorem ownGroupAdd (tag g r) : P (Sys2Proof.Machine.ownGroupAdd tag g r s) := by
  unfold Sys2Proof.Machine.ownGroupAdd
  split
  · exact k.reply s _ _ _ hs
  · split
    · exact k.reply s _ _ _ hs
    · split
      · exact k.reply s _ _ _ hs
      · split
        · exact k.reply s _ _ _ hs
        · exact k.reply _ _ _ _ (k.records s _ _ (by simp only [List.length_append, List.length_singleton]; omega) hs)

theorem ownGroupClose (tag g) : P (Sys2Proof.Machine.ownGroupClose tag g s) := by
  unfold Sys2Proof.Machine.ownGroupClose
  split
  · exact k.reply s _ _ _ hs
  · rename_i g' _
    simp only
    split_ifs
    · exact k.reply s _ _ _ hs
    · exact k.reply s _ _ _ hs
    · exact k.reply _ _ _ _ (k.group s g' { s.group g' with state := .ready } rfl hs)

theorem ownGroupDrop (tag g) : P (Sys2Proof.Machine.ownGroupDrop tag g s) := by
  unfold Sys2Proof.Machine.ownGroupDrop
  split
  · exact k.reply s _ _ _ hs
  · simp only
    split_ifs
    · exact k.reply s _ _ _ hs
    · exact k.reply s _ _ _ hs
    · exact k.reply _ _ _ _ (k.emptyGroup hs _)

omit k hs in
/-- A list of records of the same length is a change within the pool's room: nothing is taken or given back. -/
theorem setRecords_same (g : Fin 8) (l : List Record) (hl : l.length = (s.group g).records.length) :
    s.setGroup g { s.group g with records := l } = s.setRecords g l := by
  simp only [State.setGroup, State.setRecords, hl, Nat.add_sub_cancel]

theorem ownGroupEdit (tag g i v) : P (Sys2Proof.Machine.ownGroupEdit tag g i v s) := by
  unfold Sys2Proof.Machine.ownGroupEdit
  split
  · exact k.reply s _ _ _ hs
  · rename_i g' _
    simp only
    split_ifs
    · exact k.reply s _ _ _ hs
    · split
      · exact k.reply s _ _ _ hs
      · split
        · exact k.reply s _ _ _ hs
        · refine k.reply _ _ _ _ ?_
          rw [setRecords_same g' _ (List.length_set ..)]
          exact k.records s g' _ (by rw [List.length_set]; omega) hs

theorem ownGroupArm (tag g l x m) : P (Sys2Proof.Machine.ownGroupArm tag g l x m s) := by
  unfold Sys2Proof.Machine.ownGroupArm
  split
  · exact k.reply s _ _ _ hs
  · split
    · split_ifs
      · exact k.reply s _ _ _ hs
      · exact k.reply _ _ _ _ (k.armGroup hs _ _ _ _)
    · exact k.reply s _ _ _ hs
    · exact k.reply s _ _ _ hs

theorem ownGroupDisarm (tag g) : P (Sys2Proof.Machine.ownGroupDisarm tag g s) := by
  unfold Sys2Proof.Machine.ownGroupDisarm
  split
  · exact k.reply s _ _ _ hs
  · rename_i g' _
    simp only
    split_ifs
    · exact k.reply s _ _ _ hs
    all_goals
      exact k.reply _ _ _ _ (k.sync _ _ (k.group s g' { s.group g' with state := _ } rfl hs))

theorem ownGroupApply (tag g) : P (Sys2Proof.Machine.ownGroupApply tag g s) := by
  unfold Sys2Proof.Machine.ownGroupApply
  split
  · exact k.reply s _ _ _ hs
  · split_ifs
    · exact k.reply s _ _ _ hs
    · exact k.settleLanes (k.reply _ _ _ _ (k.launch hs _ _))

theorem ownGroupAbort (tag g) : P (Sys2Proof.Machine.ownGroupAbort tag g s) := by
  unfold Sys2Proof.Machine.ownGroupAbort
  split
  · exact k.reply s _ _ _ hs
  · split_ifs
    · exact k.reply s _ _ _ hs
    · exact k.settleLanes (k.abort hs _ _)

theorem ownTargetSet (tag t r) : P (Sys2Proof.Machine.ownTargetSet tag t r s) := by
  unfold Sys2Proof.Machine.ownTargetSet
  split
  · exact k.reply s _ _ _ hs
  · split_ifs
    · exact k.reply s _ _ _ hs
    · split
      · exact k.reply s _ _ _ hs
      · split_ifs
        · exact k.reply s _ _ _ hs
        · exact k.reply s _ _ _ hs
        · exact k.reply _ _ _ _ (k.target s _ _ hs)

theorem ownTargetClear (tag t) : P (Sys2Proof.Machine.ownTargetClear tag t s) := by
  unfold Sys2Proof.Machine.ownTargetClear
  split
  · exact k.reply s _ _ _ hs
  · exact k.reply _ _ _ _ (k.target s _ _ hs)

theorem ownTargetRead (tag t r) : P (Sys2Proof.Machine.ownTargetRead tag t r s) := by
  unfold Sys2Proof.Machine.ownTargetRead
  split
  · exact k.reply s _ _ _ hs
  · simp only
    split_ifs
    · exact k.reply s _ _ _ hs
    · exact k.reply s _ _ _ hs
    · exact k.settleLanes (k.appendJob hs _ _)

theorem ownLaneSet (tag n r) : P (Sys2Proof.Machine.ownLaneSet tag n r s) := by
  unfold Sys2Proof.Machine.ownLaneSet
  split
  · exact k.reply s _ _ _ hs
  · split
    · exact k.reply s _ _ _ hs
    · simp only
      split_ifs
      · exact k.reply s _ _ _ hs
      · exact k.reply s _ _ _ hs
      · exact k.reply _ _ _ _ (k.lane s _ _ hs)

theorem ownSyncSet (tag l e w) : P (Sys2Proof.Machine.ownSyncSet tag l e w s) := by
  unfold Sys2Proof.Machine.ownSyncSet
  split
  · split_ifs
    · exact k.reply _ _ _ _ (k.setLine hs _ _)
    · exact k.reply s _ _ _ hs
  · exact k.reply s _ _ _ hs
  · exact k.reply s _ _ _ hs

theorem ownSyncPulse (tag l) : P (Sys2Proof.Machine.ownSyncPulse tag l s) := by
  unfold Sys2Proof.Machine.ownSyncPulse
  split
  · exact k.reply s _ _ _ hs
  · exact k.settleLanes (k.placed _ (k.reply _ _ _ _ (k.edgeMade hs _)))

theorem ownSyncQuery (tag l) : P (Sys2Proof.Machine.ownSyncQuery tag l s) := by
  unfold Sys2Proof.Machine.ownSyncQuery
  split
  · exact k.reply s _ _ _ hs
  · exact k.drawn (k.reply s _ _ _ hs)

theorem ownLoopSet (tag n r) : P (Sys2Proof.Machine.ownLoopSet tag n r s) := by
  unfold Sys2Proof.Machine.ownLoopSet
  split
  · exact k.reply s _ _ _ hs
  · split_ifs
    · exact k.reply s _ _ _ hs
    · split
      · exact k.reply s _ _ _ hs
      · split_ifs
        · exact k.reply _ _ _ _ (k.loop s _ _ hs)
        · exact k.reply s _ _ _ hs

theorem ownLoopStart (tag n) : P (Sys2Proof.Machine.ownLoopStart tag n s) := by
  unfold Sys2Proof.Machine.ownLoopStart
  split
  · exact k.reply s _ _ _ hs
  · split
    · exact k.reply s _ _ _ hs
    · exact k.settleLanes (k.reply _ _ _ _ (k.startLoop hs _))

theorem ownLoopStop (tag n) : P (Sys2Proof.Machine.ownLoopStop tag n s) := by
  unfold Sys2Proof.Machine.ownLoopStop
  split
  · exact k.reply s _ _ _ hs
  · split_ifs
    · exact k.reply s _ _ _ hs
    · exact k.reply _ _ _ _ (k.stopLoop hs _)

theorem ownLoopQuery (tag n) : P (Sys2Proof.Machine.ownLoopQuery tag n s) := by
  unfold Sys2Proof.Machine.ownLoopQuery
  split
  · exact k.reply s _ _ _ hs
  · exact k.reply _ _ _ _ (k.loop s _ _ hs)

theorem ownSlotSave (tag g x l) : P (Sys2Proof.Machine.ownSlotSave tag g x l s) := by
  unfold Sys2Proof.Machine.ownSlotSave
  split
  · rename_i slot g' _ _
    split
    · exact k.reply s _ _ _ hs
    · simp only
      split_ifs
      · exact k.reply s _ _ _ hs
      · exact k.reply s _ _ _ hs
      · exact k.accepted (k.group s g' { s.group g' with pins := (s.group g').pins + 1 } rfl hs) _ _
  · exact k.reply s _ _ _ hs
  · exact k.reply s _ _ _ hs

theorem ownSlotLoad (tag x g) : P (Sys2Proof.Machine.ownSlotLoad tag x g s) := by
  unfold Sys2Proof.Machine.ownSlotLoad
  split
  · split_ifs
    · exact k.reply s _ _ _ hs
    · exact k.accepted (k.reserve hs _) _ _
  · exact k.reply s _ _ _ hs
  · exact k.reply s _ _ _ hs

theorem ownSlotErase (tag x) : P (Sys2Proof.Machine.ownSlotErase tag x s) := by
  unfold Sys2Proof.Machine.ownSlotErase
  split
  · exact k.reply s _ _ _ hs
  · split
    · exact k.reply s _ _ _ hs
    · exact k.accepted hs _ _

theorem ownSlotProtect (tag x) : P (Sys2Proof.Machine.ownSlotProtect tag x s) := by
  unfold Sys2Proof.Machine.ownSlotProtect
  split
  · exact k.reply s _ _ _ hs
  · exact k.reply _ _ _ _ (k.store s _ hs)

theorem ownSlotUnprotect (tag x) : P (Sys2Proof.Machine.ownSlotUnprotect tag x s) := by
  unfold Sys2Proof.Machine.ownSlotUnprotect
  split
  · exact k.reply s _ _ _ hs
  · split_ifs
    · exact k.reply s _ _ _ hs
    · exact k.reply _ _ _ _ (k.store s _ hs)

theorem ownSlotLock (tag x) : P (Sys2Proof.Machine.ownSlotLock tag x s) := by
  unfold Sys2Proof.Machine.ownSlotLock
  split
  · exact k.reply s _ _ _ hs
  · split_ifs
    · exact k.reply s _ _ _ hs
    · exact k.accepted hs _ _

theorem ownSetupStart (tag d) : P (Sys2Proof.Machine.ownSetupStart tag d s) := by
  unfold Sys2Proof.Machine.ownSetupStart
  split
  · exact k.reply s _ _ _ hs
  · exact k.reply _ _ _ _ (k.startup s _ hs)

theorem ownPartResetFull (tag) : P (Sys2Proof.Machine.ownPartResetFull tag s) :=
  k.replyFull { s with suc := { s.suc with phase := .starting } } tag [Status.ok.byte] true (k.startup s _ hs)

theorem ownPartResetSequencer (tag) : P (Sys2Proof.Machine.ownPartResetSequencer tag s) :=
  k.reply _ _ _ _ (k.clear _ (k.cancelStore (k.cutLanes hs)))

theorem loopReset (n) : P (s.loopReset n) := k.loop _ _ _ (k.stopLoop hs n)

theorem ownPartResetLoops (tag) : P (Sys2Proof.Machine.ownPartResetLoops tag s) := by
  unfold Sys2Proof.Machine.ownPartResetLoops
  exact k.reply _ _ _ _ (foldl_keeps (P := P) (fun _ n h => k.loopReset h n) _ _ hs)

/-! ## Frames -/

theorem ownGroupQuery (tag g) : P (Sys2Proof.Machine.ownGroupQuery tag g s) := by
  unfold Sys2Proof.Machine.ownGroupQuery
  split
  all_goals exact k.reply s _ _ _ hs

theorem ownTargetQuery (tag t) : P (Sys2Proof.Machine.ownTargetQuery tag t s) := by
  unfold Sys2Proof.Machine.ownTargetQuery
  split
  all_goals exact k.reply s _ _ _ hs

theorem ownLaneQuery (tag n) : P (Sys2Proof.Machine.ownLaneQuery tag n s) := by
  unfold Sys2Proof.Machine.ownLaneQuery
  split
  all_goals exact k.reply s _ _ _ hs

theorem reqGroupRead (h g f) : P (Sys2Proof.Machine.reqGroupRead h g f s) := by
  refine k.request hs _ _ _ fun t ht => ?_
  unfold Sys2Proof.Machine.ownGroupRead
  split
  · exact k.reply t _ _ _ ht
  · simp only
    split_ifs
    · exact k.reply t _ _ _ ht
    · exact k.reply t _ _ _ ht

theorem groupRequest (h c b) : P (Sys2Proof.Machine.groupRequest h c b s) := by
  unfold Sys2Proof.Machine.groupRequest
  split
  · exact k.request hs _ _ _ fun _ ht => k.ownGroupOpen ht _ _
  · exact k.request hs _ _ _ fun _ ht => k.ownGroupAdd ht _ _ _
  · exact k.request hs _ _ _ fun _ ht => k.ownGroupClose ht _ _
  · exact k.request hs _ _ _ fun _ ht => k.ownGroupDrop ht _ _
  · exact k.request hs _ _ _ fun _ ht => k.ownGroupEdit ht _ _ _ _
  · exact k.request hs _ _ _ fun _ ht => k.ownGroupQuery ht _ _
  · exact k.reqGroupRead hs _ _ _
  · exact k.request hs _ _ _ fun _ ht => k.ownGroupArm ht _ _ _ _ _
  · exact k.request hs _ _ _ fun _ ht => k.ownGroupDisarm ht _ _
  · exact k.request hs _ _ _ fun _ ht => k.ownGroupApply ht _ _
  · exact k.request hs _ _ _ fun _ ht => k.ownGroupAbort ht _ _
  · exact hs

theorem laneRequest (h c b) : P (Sys2Proof.Machine.laneRequest h c b s) := by
  unfold Sys2Proof.Machine.laneRequest
  split
  · exact k.request hs _ _ _ fun _ ht => k.ownTargetSet ht _ _ _
  · exact k.request hs _ _ _ fun _ ht => k.ownTargetQuery ht _ _
  · exact k.request hs _ _ _ fun _ ht => k.ownTargetClear ht _ _
  · exact k.request hs _ _ _ fun _ ht => k.ownTargetRead ht _ _ _
  · exact k.request hs _ _ _ fun _ ht => k.ownLaneSet ht _ _ _
  · exact k.request hs _ _ _ fun _ ht => k.ownLaneQuery ht _ _
  · exact k.request hs _ _ _ fun _ ht => k.ownSyncSet ht _ _ _ _
  · exact k.request hs _ _ _ fun _ ht => k.ownSyncPulse ht _ _
  · exact k.request hs _ _ _ fun _ ht => k.ownSyncQuery ht _ _
  · exact hs

theorem loopRequest (h c b) : P (Sys2Proof.Machine.loopRequest h c b s) := by
  unfold Sys2Proof.Machine.loopRequest
  split
  · exact k.request hs _ _ _ fun _ ht => k.ownLoopSet ht _ _ _
  · exact k.request hs _ _ _ fun _ ht => k.ownLoopStart ht _ _
  · exact k.request hs _ _ _ fun _ ht => k.ownLoopStop ht _ _
  · exact k.request hs _ _ _ fun _ ht => k.ownLoopQuery ht _ _
  · exact hs

theorem reqPartReset (h c) : P (Sys2Proof.Machine.reqPartReset h c s) := by
  unfold Sys2Proof.Machine.reqPartReset
  split_ifs
  · exact k.request hs _ _ _ fun _ ht => k.ownPartResetFull ht _
  · exact k.request hs _ _ _ fun _ ht => k.ownPartResetSequencer ht _
  · exact k.request hs _ _ _ fun _ ht => k.reply _ _ _ _ (k.cutLanes ht)
  · exact k.request hs _ _ _ fun _ ht => k.ownPartResetLoops ht _
  · exact k.request hs _ _ _ fun _ ht => k.reply _ _ _ _ ht

theorem storeRequest (h c b) : P (Sys2Proof.Machine.storeRequest h c b s) := by
  unfold Sys2Proof.Machine.storeRequest
  split
  · exact k.request hs _ _ _ fun _ ht => k.ownSlotSave ht _ _ _ _
  · exact k.request hs _ _ _ fun _ ht => k.ownSlotLoad ht _ _ _
  · exact k.request hs _ _ _ fun _ ht => k.ownSlotErase ht _ _
  · exact k.request hs _ _ _ fun _ ht => k.ownSlotProtect ht _ _
  · exact k.request hs _ _ _ fun _ ht => k.ownSlotUnprotect ht _ _
  · exact k.request hs _ _ _ fun _ ht => k.ownSlotLock ht _ _
  · exact k.request hs _ _ _ fun _ ht => k.reply _ _ _ _ (k.store _ _ ht)
  · exact k.request hs _ _ _ fun _ ht => k.reply _ _ _ _ ht
  · exact k.request hs _ _ _ fun _ ht => k.accepted ht _ _
  · exact k.request hs _ _ _ fun _ ht => k.ownSetupStart ht _ _
  · exact k.request hs _ _ _ fun _ ht => k.reply _ _ _ _ ht
  · exact k.request hs _ _ _ fun _ ht => k.reply _ _ _ _ ht
  · exact k.request hs _ _ _ fun _ ht => k.reply _ _ _ _ ht
  · exact k.reqPartReset hs _ _
  · exact hs

theorem frameTaken (h c b) : P (Sys2Proof.Machine.frameTaken h c b s) := by
  unfold Sys2Proof.Machine.frameTaken
  split
  · exact k.request hs _ _ _ fun _ ht => ht
  · split_ifs
    · exact k.groupRequest hs _ _ _
    · exact k.laneRequest hs _ _ _
    · exact k.loopRequest hs _ _ _
    · exact k.storeRequest hs _ _ _

theorem setRx (x) : P (s.setRx x) := k.port s x s.hpt.gapTimer s.hpt.sending hs

theorem assemble (l) : P (Sys2Proof.Machine.assemble l s) := by
  unfold Sys2Proof.Machine.assemble
  split_ifs
  · exact k.setRx hs _
  · exact k.setRx hs _
  · exact k.setRx hs _
  · exact k.frameTaken (k.setRx hs _) _ _ _

theorem characterArrival (c) : P (Sys2Proof.Machine.characterArrival c s) := by
  have h : P { s with hpt := { s.hpt with gapTimer := true } } := k.port s s.hpt.rx true s.hpt.sending hs
  unfold Sys2Proof.Machine.characterArrival
  extract_lets _ t
  have ht : P t := h
  clear_value t
  split
  · exact ht
  · split_ifs
    · exact k.setRx ht _
    · exact ht
  · exact k.assemble ht _
  · exact ht

theorem gapExpired : P (Sys2Proof.Machine.gapExpired s) := by
  have h : P { s with hpt := { s.hpt with rx := .hunting, gapTimer := false } } :=
    k.port s .hunting false s.hpt.sending hs
  unfold Sys2Proof.Machine.gapExpired
  split
  · split
    · split
      · exact h
      · rename_i hp
        exact k.refuse { s with hpt := { s.hpt with rx := .hunting, gapTimer := false } } _ _ _ (Nat.not_le.1 hp) h
    all_goals exact h
  · exact hs

theorem levelChanged (l x) : P (Sys2Proof.Machine.levelChanged l x s) := k.setLine hs l _

theorem filterSettled (l) : P (Sys2Proof.Machine.filterSettled l s) := by
  unfold Sys2Proof.Machine.filterSettled
  simp only
  split_ifs
  · exact k.edge (k.setLine hs l _) l
  · exact k.setLine hs l _
  · exact hs

/-! ## Every command -/

theorem taking {f : State → State} (hf : ∀ t, P t → P (f t)) {t : State} (ht : s.taking f = .next t) : P t := by
  unfold State.taking at ht
  split_ifs at ht
  · cases ht
    exact k.arbiter _ (hf s hs)
  · cases ht
    exact hs

/-- Every command keeps a property that every elementary update keeps. -/
theorem exec {c : Instr} {t : State} (ht : Sys2Proof.Machine.exec c s = .next t) : P t := by
  cases c with
  | groupOpen h g => exact k.taking hs (fun _ x => k.request x _ _ _ fun _ y => k.ownGroupOpen y _ _) ht
  | groupAdd h g r => exact k.taking hs (fun _ x => k.request x _ _ _ fun _ y => k.ownGroupAdd y _ _ _) ht
  | groupClose h g => exact k.taking hs (fun _ x => k.request x _ _ _ fun _ y => k.ownGroupClose y _ _) ht
  | groupDrop h g => exact k.taking hs (fun _ x => k.request x _ _ _ fun _ y => k.ownGroupDrop y _ _) ht
  | groupEdit h g i v => exact k.taking hs (fun _ x => k.request x _ _ _ fun _ y => k.ownGroupEdit y _ _ _ _) ht
  | groupQuery h g => exact k.taking hs (fun _ x => k.request x _ _ _ fun _ y => k.ownGroupQuery y _ _) ht
  | groupRead h g f => exact k.taking hs (fun _ x => k.reqGroupRead x _ _ _) ht
  | groupArm h g l x m => exact k.taking hs (fun _ x => k.request x _ _ _ fun _ y => k.ownGroupArm y _ _ _ _ _) ht
  | groupDisarm h g => exact k.taking hs (fun _ x => k.request x _ _ _ fun _ y => k.ownGroupDisarm y _ _) ht
  | groupApply h g => exact k.taking hs (fun _ x => k.request x _ _ _ fun _ y => k.ownGroupApply y _ _) ht
  | groupAbort h g => exact k.taking hs (fun _ x => k.request x _ _ _ fun _ y => k.ownGroupAbort y _ _) ht
  | targetSet h t c => exact k.taking hs (fun _ x => k.request x _ _ _ fun _ y => k.ownTargetSet y _ _ _) ht
  | targetQuery h t => exact k.taking hs (fun _ x => k.request x _ _ _ fun _ y => k.ownTargetQuery y _ _) ht
  | targetClear h t => exact k.taking hs (fun _ x => k.request x _ _ _ fun _ y => k.ownTargetClear y _ _) ht
  | targetRead h t r => exact k.taking hs (fun _ x => k.request x _ _ _ fun _ y => k.ownTargetRead y _ _ _) ht
  | laneSet h n c => exact k.taking hs (fun _ x => k.request x _ _ _ fun _ y => k.ownLaneSet y _ _ _) ht
  | laneQuery h n => exact k.taking hs (fun _ x => k.request x _ _ _ fun _ y => k.ownLaneQuery y _ _) ht
  | syncSet h l e w => exact k.taking hs (fun _ x => k.request x _ _ _ fun _ y => k.ownSyncSet y _ _ _ _) ht
  | syncPulse h l => exact k.taking hs (fun _ x => k.request x _ _ _ fun _ y => k.ownSyncPulse y _ _) ht
  | syncQuery h l => exact k.taking hs (fun _ x => k.request x _ _ _ fun _ y => k.ownSyncQuery y _ _) ht
  | loopSet h n c => exact k.taking hs (fun _ x => k.request x _ _ _ fun _ y => k.ownLoopSet y _ _ _) ht
  | loopStart h n => exact k.taking hs (fun _ x => k.request x _ _ _ fun _ y => k.ownLoopStart y _ _) ht
  | loopStop h n => exact k.taking hs (fun _ x => k.request x _ _ _ fun _ y => k.ownLoopStop y _ _) ht
  | loopQuery h n => exact k.taking hs (fun _ x => k.request x _ _ _ fun _ y => k.ownLoopQuery y _ _) ht
  | slotSave h g x l => exact k.taking hs (fun _ x => k.request x _ _ _ fun _ y => k.ownSlotSave y _ _ _ _) ht
  | slotLoad h x g => exact k.taking hs (fun _ x => k.request x _ _ _ fun _ y => k.ownSlotLoad y _ _ _) ht
  | slotErase h x => exact k.taking hs (fun _ x => k.request x _ _ _ fun _ y => k.ownSlotErase y _ _) ht
  | slotProtect h x => exact k.taking hs (fun _ x => k.request x _ _ _ fun _ y => k.ownSlotProtect y _ _) ht
  | slotUnprotect h x => exact k.taking hs (fun _ x => k.request x _ _ _ fun _ y => k.ownSlotUnprotect y _ _) ht
  | slotLock h x => exact k.taking hs (fun _ x => k.request x _ _ _ fun _ y => k.ownSlotLock y _ _) ht
  | slotFreeze h => exact k.taking hs (fun _ x => k.request x _ _ _ fun _ y => k.reply _ _ _ _ (k.store _ _ y)) ht
  | slotList h => exact k.taking hs (fun _ x => k.request x _ _ _ fun _ y => k.reply _ _ _ _ y) ht
  | setupSave h => exact k.taking hs (fun _ x => k.request x _ _ _ fun _ y => k.accepted y _ _) ht
  | setupStart h d => exact k.taking hs (fun _ x => k.request x _ _ _ fun _ y => k.ownSetupStart y _ _) ht
  | setupQuery h => exact k.taking hs (fun _ x => k.request x _ _ _ fun _ y => k.reply _ _ _ _ y) ht
  | partIdent h => exact k.taking hs (fun _ x => k.request x _ _ _ fun _ y => k.reply _ _ _ _ y) ht
  | partStatus h => exact k.taking hs (fun _ x => k.request x _ _ _ fun _ y => k.reply _ _ _ _ y) ht
  | partResetFull h => exact k.taking hs (fun _ x => k.request x _ _ _ fun _ y => k.ownPartResetFull y _) ht
  | partResetSequencer h => exact k.taking hs (fun _ x => k.request x _ _ _ fun _ y => k.ownPartResetSequencer y _) ht
  | partResetLanes h => exact k.taking hs (fun _ x => k.request x _ _ _ fun _ y => k.reply _ _ _ _ (k.cutLanes y)) ht
  | partResetLoops h => exact k.taking hs (fun _ x => k.request x _ _ _ fun _ y => k.ownPartResetLoops y _) ht
  | uartFramingError => exact k.taking hs (fun t x => k.port t .settling true t.hpt.sending x) ht
  | gapTimerExpiry => exact k.taking hs (fun _ x => k.gapExpired x) ht
  | transmitEnd x => exact k.taking hs (fun _ y => k.transmitEnd y x) ht
  | powerOn x => cases ht; exact k.powerOn hs x
  | powerFail => cases ht; exact k.powerFail hs
  | resetnAssert => cases ht; exact k.resetnAssert hs
  | resetnRelease x => cases ht; exact k.resetnRelease hs x
  | directoryRebuild => exact k.taking hs (fun _ x => k.directoryRebuild x) ht
  | setupAreaRead => exact k.taking hs (fun _ x => k.setupAreaRead x) ht
  | syncLevelChange l x =>
    exact k.taking (s := s.setPinLevel l x) (by cases l <;> exact k.withPins hs _)
      (fun _ y => k.levelChanged y l x) ht
  | syncFilterSettled l => exact k.taking hs (fun _ x => k.filterSettled x l) ht
  | windowExpiry l => exact k.taking hs (fun _ x => k.closeWindow x l) ht
  | transactionEnd l e => exact k.taking hs (fun _ x => k.transactionEnd x l e) ht
  | clockHoldTimeout l => exact k.taking hs (fun _ x => k.clockHoldTimeout x l) ht
  | pollGapExpiry l => exact k.taking hs (fun _ x => k.pollGapExpiry x l) ht
  | waitExpiry l => exact k.taking hs (fun _ x => k.waitExpiry x l) ht
  | eraseComplete l => exact k.taking hs (fun _ x => k.eraseComplete x l) ht
  | pageProgramComplete l => exact k.taking hs (fun _ x => k.pageProgramComplete x l) ht
  | imageReadComplete => exact k.taking hs (fun _ x => k.imageReadComplete x) ht
  | fuseProgramComplete b => exact k.taking hs (fun _ x => k.fuseProgramComplete x b) ht
  | suspendEffect => exact k.taking hs (fun _ x => k.suspendEffect x) ht
  | resumeGuardExpiry => exact k.taking hs (fun _ x => k.resumeGuardExpiry x) ht
  | characterArrival c => exact k.taking hs (fun _ x => k.characterArrival x c) ht

end Whole

end Sys2Proof.Machine
end

