-- ==== Sys2Proof/Tests/Slice0.lean ====
section
/-! SUPPORT. The model's own tests: the well-formedness smoke, one-step runs, and for every statement with hypotheses a
state and operands that meet them, clause by clause, at the ends of their ranges. -/

namespace Sys2Proof.Tests

open Sys2Proof Sys2Proof.Machine

/-! ## Small states -/

/-- A running part with nothing configured. -/
def up : State := { State.reset with suc := { Suc.begun .power with phase := .running, stage := .over } }

/-- A part whose supply is down. -/
def dead : State := { State.reset with pins := { State.reset.pins with power := false } }

/-- A good frame head. -/
def ask : ReqHead := ⟨1#8, true⟩

/-- `up` with four requests outstanding. -/
def crowded : State :=
  { up with hpt := { up.hpt with outstanding := [⟨11#8, 0x23#8⟩, ⟨12#8, 0x23#8⟩, ⟨13#8, 0x23#8⟩, ⟨14#8, 0x23#8⟩] } }

/-- `up` with all eight places of the reply queue taken. -/
def full : State := { up with hpt := { up.hpt with replies := List.replicate 8 ⟨9#8, 0xF0#8, [], false⟩ } }

/-- `up` with group 0 in a state, holding records. -/
def grouped (st : GroupState) (rs : List Record) : State :=
  up.setGroup 0 { GroupEntry.reset with state := st, records := rs }

/-- An enabled I2C target on lane 0. -/
def device : TargetCfg :=
  { enabled := true, lane := 0, address := .i2c 0x77#8, regWidth := .one, dataWidth := .one, autoInc := true,
    verify := true, retries := 1, timeout := some 1#8 }

/-- `up` with target 0 in use of the device. -/
def equipped : State := up.setTarget 0 ⟨device, none⟩

/-- A record at the ends of its ranges. -/
def write : Record := .single 0 255#16 255#32

/-- A loop that runs on target 0. -/
def loopCfg : LoopCfg :=
  { LoopCfg.reset with
    measReg := 1#16, outReg := 255#16, setpoint := 50#32, narrow := 2#32, wide := 5#32, min := 10#32, max := 90#32,
    initialOutput := 90#32, autostart := true }

/-- The follower of that loop, at its fewest points. -/
def follower : Follower := ⟨0, 7#16, [(0#32, 1#32), (91#32, 2#32)]⟩

/-- `equipped` with loop 0 configured, in a state and a cycle. -/
def looped (st : LoopState) (cy : Cycle) (c : LoopCfg := loopCfg) : State :=
  equipped.setLoop 0 { LoopEntry.reset with configured := true, cfg := c, state := st, cycle := cy, output := 90#32 }

/-- A job in flight on lane 0. -/
def flight (j : Job) (p : Machine.Part) : Flight := ⟨j, device, p, 1, 0, 0, false, []⟩

/-- `equipped` with a job in flight on lane 0. -/
def flying (f : Flight) : State := equipped.setFlight 0 (some f)

/-- Work of a save of group 0 to slot 31. -/
def saving : Work := ⟨⟨.save 0 31 (Vector.replicate 8 0x41#8), some 9#8, 0⟩, List.replicate 44 1#8,
  some ⟨Vector.replicate 8 0x41#8, 1#16, 12#16⟩⟩

/-- `up` with the engine in a state. -/
def engaged (e : Engine) : State := up.setEngine e

/-- A load of slot 0 into group 0. -/
def loading : StoreOp := ⟨.load 0 0, some 9#8, 0⟩

/-- An erase of slot 31. -/
def erasing : StoreOp := ⟨.erase 31, some 9#8, 0⟩

/-- `up` with slot 31 as its guards say. -/
def guarded (p l : Bool) : State := up.setSlot 31 ⟨.blank, p, l⟩

/-- `up` with group 0 in the arm list. -/
def armed (st : GroupState) (countdown : Byte) (m : ArmMode) : State :=
  (grouped st [write]).setArm [⟨0, .sync0, 3#8, countdown, m⟩]

/-! ## Well-formed commands -/

theorem test_wellFormed_accepts :
    WellFormed (.groupAdd ask 0#8 ⟨2#8, 0#8, 0#16, 0#8, 0#16, List.replicate 255 0#32⟩) = true ∧
    WellFormed (.eraseComplete [(4095, 0xFE#8), (0, 0#8)]) = true ∧
    WellFormed (.pageProgramComplete (some (List.replicate 256 0#8))) = true := by decide +kernel

theorem test_groupAdd_illFormed :
    WellFormed (.groupAdd ask 0#8 ⟨2#8, 0#8, 0#16, 0#8, 0#16, List.replicate 256 0#32⟩) = false := by decide +kernel

theorem test_groupEdit_illFormed : WellFormed (.groupEdit ask 0#8 0#8 (List.replicate 256 0#32)) = false := by
  decide +kernel

theorem test_loopSet_illFormed :
    WellFormed (.loopSet ask 0#8 ⟨0#8, 1#8, 0#8, 0#16, 0#8, 0#16, 0#32, 1#16, 0#32, 0#32, 0#32, 0#32, 0#8, 0#8, 0#32,
      0#8, 1#8, 0#8, 0#16, List.replicate 256 (0#32, 0#32)⟩) = false := by decide +kernel

theorem test_residue_offset_illFormed : WellFormed (.eraseComplete [(4096, 0#8)]) = false := by decide

theorem test_residue_erased_illFormed : WellFormed (.eraseComplete [(0, 0xFF#8)]) = false := by decide

theorem test_residue_twice_illFormed : WellFormed (.eraseComplete [(0, 0#8), (0, 1#8)]) = false := by decide

theorem test_page_illFormed : WellFormed (.pageProgramComplete (some (List.replicate 255 0#8))) = false := by
  decide +kernel

/-! ## Steps and frames -/

theorem test_front_command :
    step (up.withPending [.slotFreeze ask]) = exec (.slotFreeze ask) up ∧ State.reset.pending = [] := ⟨rfl, rfl⟩

/-- A start with its last step due. -/
def dueUp : State := { State.reset with suc := { Suc.begun .power with stage := .due .slotBlank } }

theorem test_last_step_due :
    dueUp.pending = [] ∧ dueUp.suc.stage = .due .slotBlank ∧ dueUp.live = true ∧
    (∃ t : State, step dueUp = .next t ∧ t.suc.phase = .running ∧ t.suc.stage = .over ∧
      t.suc.report.result = some .slotBlank) ∧
    (dead.live = false ∧ step up = .next up) := by
  refine ⟨rfl, rfl, rfl, ⟨_, rfl, ?_⟩, rfl, rfl⟩
  decide

theorem test_dead_part : dead.live = false ∧ takenWhenDead .gapTimerExpiry = false ∧ takenWhenDead (.slotList ask) = false := by
  decide

theorem test_refusals_met :
    (full.live = true ∧ 8 ≤ full.hpt.placesUsed) ∧
    (crowded.hpt.placesUsed < 8 ∧ 4 ≤ crowded.hpt.outstanding.length ∧ ∀ o ∈ crowded.hpt.outstanding, o.tag ≠ ask.tag) ∧
    (∃ o ∈ crowded.hpt.outstanding, o.tag = 14#8) ∧
    requestOf (.groupAdd ask 0#8 ⟨2#8, 0#8, 0#16, 0#8, 0#16, List.replicate 33 0#32⟩) =
      some (ask, 0x11#8, some .badLength) ∧
    requestOf (.groupAdd ask 0#8 ⟨2#8, 0#8, 0#16, 0#8, 0#16, List.replicate 32 0#32⟩) = some (ask, 0x11#8, none) ∧
    (State.reset.suc.phase = .starting ∧ requestOf (.slotList ask) = some (ask, 0x57#8, none)) := by decide +kernel

theorem test_refusal_outcomes :
    exec (.slotList ⟨1#8, false⟩) up = .next (up.replied ask 0x57#8 .badFrame []) ∧
    exec (.slotList ⟨0#8, true⟩) up = .next (up.replied ⟨0#8, true⟩ 0x57#8 .badTag []) ∧
    exec (.slotList ask) crowded = .next (crowded.replied ask 0x57#8 .busy []) := ⟨rfl, rfl, rfl⟩

/-- The first number out of range of each request that carries one, and the last in range. -/
theorem test_bad_numbers :
    (∀ c ∈ [Instr.groupOpen ask 8#8, .groupArm ask 0#8 2#8 0#8 0#8, .groupArm ask 0#8 0#8 0#8 2#8, .targetQuery ask 16#8,
        .laneSet ask 4#8 ⟨0#8, 400#16, 0#8, 0#8⟩, .laneSet ask 0#8 ⟨1#8, 400#16, 1#8, 0#8⟩, .syncSet ask 0#8 3#8 0#16] ++
        [.syncSet ask 0#8 0#8 6001#16, .syncQuery ask 2#8, .loopStop ask 4#8, .slotSave ask 8#8 0#8 (Vector.replicate 8 0#8),
         .slotLoad ask 32#8 0#8, .slotLock ask 32#8, .setupStart ask ⟨2#8, 0#8, 0#8, 0#8⟩,
         .setupStart ask ⟨1#8, 32#8, 0#8, 0#8⟩],
      badNumber c = true ∧ (requestOf c).isSome = true) ∧
    (∀ c ∈ [Instr.groupOpen ask 7#8, .groupArm ask 7#8 1#8 255#8 1#8, .targetQuery ask 15#8,
        .laneSet ask 3#8 ⟨1#8, 25000#16, 1#8, 3#8⟩, .syncSet ask 1#8 2#8 6000#16, .loopStop ask 3#8,
        .slotLoad ask 31#8 7#8, .setupStart ask ⟨1#8, 31#8, 1#8, 255#8⟩, .setupStart ask ⟨0#8, 32#8, 2#8, 0#8⟩],
      badNumber c = false) ∧ up.admits ask := by decide +kernel

theorem test_laws_met :
    State.reset.hostLimits ∧ State.reset.poolLaw ∧ State.reset.emptyLaw ∧ State.reset.armLaw ∧ State.reset.pendingLaw ∧
    State.reset.guardLaw ∧ State.reset.lockLaw ∧ State.reset.laneLaw ∧ State.reset.workLaw ∧ State.reset.jobsLaw ∧
    Memory.wf State.reset.nv.mem ∧ State.reset.raised = 0 ∧ State.reset.hpt.cut ≠ .raised ∧
    ∃ t, step (up.withPending [.groupOpen ask 0#8]) = .next t := by
  refine ⟨?_, ?_, ?_, ?_, ?_, ?_, ?_, ?_, ?_, ?_, ?_, ?_, ?_, ⟨_, rfl⟩⟩ <;> decide +kernel

/-- The character 0xA5 on the line, and what a stop bit that reads low comes to (R189). -/
theorem test_characters :
    charLevels 0xA5#8 = [false, true, false, true, false, false, true, false, true, true] ∧
    heard (charLevels 0xA5#8) = some (.characterArrival 0xA5#8) ∧
    heard [false, true, false, true, false, false, true, false, true, false] = some .uartFramingError ∧
    up.hpt.txd = [true] := by decide +kernel

/-- The identifier is there from the start on (R197). -/
theorem test_identifier_at_start :
    State.reset.psc.uid = Config.uniqueId ∧ (up.beginStart .pin ⟨false, false⟩).psc.uid = up.nv.id := ⟨rfl, rfl⟩

/-- `up` with a frame on TXD, replies and notices waiting. -/
def sending (f : Bool) (rs : List Reply) (ns : List Notice) : State :=
  { up with hpt := { up.hpt with sending := some ⟨[0xA5#8], f⟩, replies := rs, notices := ns } }

theorem test_transmitter_met :
    (sending true [] []).live = true ∧ (sending true [] []).hpt.sending = some ⟨[0xA5#8], true⟩ ∧
    (sending false [⟨1#8, 0xF0#8, [0#8], false⟩] []).hpt.replies = [⟨1#8, 0xF0#8, [0#8], false⟩] ∧
    (sending false [] [⟨1#8, [0#8]⟩]).hpt.notices = [⟨1#8, [0#8]⟩] ∧ (sending false [] []).hpt.notices = [] ∧
    (sending false [] []).hpt.cut ≠ .past := by
  decide +kernel

/-- A reply for the second of two outstanding requests: its entry is removed, and its code has the top bit set; a tag that is
not outstanding gets none (R193, R194). -/
theorem test_answer_met :
    crowded.hpt.outstanding = [⟨11#8, 0x23#8⟩] ++ ⟨12#8, 0x23#8⟩ :: [⟨13#8, 0x23#8⟩, ⟨14#8, 0x23#8⟩] ∧
    (∀ o ∈ crowded.hpt.outstanding, o.tag ≠ 9#8) ∧
    (crowded.answer 12#8 .nak).hpt.replies = [⟨12#8, 0xA3#8, [0x20#8], false⟩] ∧
    (crowded.answer 12#8 .nak).hpt.outstanding.map (·.tag) = [11#8, 13#8, 14#8] ∧ (crowded.answer 9#8 .nak).hpt = crowded.hpt ∧
    loading.origin = some 9#8 ∧ { loading with origin := none }.origin = none := by decide +kernel

/-- `up` with the receive assembly in a state. -/
def receiving (x : Rx) : State := { up with hpt := { up.hpt with rx := x, gapTimer := true } }

theorem test_assembly_met :
    (receiving .hunting).live = true ∧ (receiving .hunting).hpt.gapTimer = true ∧ up.hpt.rx = .settling ∧
    ([1#8, 0x70#8] : List Byte).length + 1 < 4 ∧
    (halfAt ([1#8, 0x70#8, 0x59#8] ++ [2#8]) 2).toNat = 601 ∧ (halfAt ([1#8, 0x70#8, 0x58#8] ++ [2#8]) 2).toNat = 600 ∧
    [1#8, 0x70#8, 0#8, 0#8, (crc16 [1#8, 0x70#8, 0#8, 0#8]).setWidth 8] ++ [((crc16 [1#8, 0x70#8, 0#8, 0#8]) >>> 8).setWidth 8] =
      [1#8, 0x70#8] ++ natHalf 0 ++ [] ++ halfBytes (crc16 [1#8, 0x70#8, 0#8, 0#8]) := by decide +kernel

theorem test_assembly_runs :
    exec (.characterArrival 0xA5#8) (receiving .hunting) = .next (receiving (.assembling [])).arbitrated ∧
    exec (.characterArrival 3#8) (receiving (.assembling [1#8, 0x70#8, 0#8])) =
      .next (receiving (.overlong 1#8 0x70#8)).arbitrated ∧
    exec .gapTimerExpiry (receiving (.overlong 1#8 0x70#8)) =
      .next (State.replied { up with hpt := { up.hpt with rx := .hunting, gapTimer := false } } ⟨1#8, false⟩ 0x70#8
        .badFrame []) := ⟨rfl, rfl, rfl⟩

theorem test_frame_met :
    requestOf (.groupAdd ask 7#8 ⟨1#8, 0#8, 255#16, 0#8, 0#16, [255#32]⟩) = some (ask, 0x11#8, none) ∧
    bodyOf (.groupAdd ask 7#8 ⟨1#8, 0#8, 255#16, 0#8, 0#16, [255#32]⟩) =
      some [7#8, 1#8, 0#8, 255#8, 0#8, 0#8, 1#8, 0#8, 0#8, 255#8, 0#8, 0#8, 0#8] ∧
    codeCheck 0x11#8 [7#8, 1#8, 0#8, 255#8, 0#8, 0#8, 1#8, 0#8, 0#8, 255#8, 0#8, 0#8, 0#8] = none ∧
    codeCheck 0x33#8 [] = some .unknownCode ∧ codeCheck 0x10#8 [] = some .badLength ∧
    codeCheck 0x14#8 [0#8, 0#8] = some .badLength ∧ codeCheck 0x14#8 [0#8, 0#8, 0#8] = none ∧
    codeCheck 0x14#8 [0#8, 0#8, 33#8] = some .badLength ∧ up.hears ask ∧ State.reset.hears ask ∧
    State.reset.suc.phase = .starting ∧ (4#8 : Byte).toNat = 4 := by decide +kernel

theorem test_frame_refused :
    up.taking (frameTaken ask 0x33#8 []) = .next (up.replied ask 0x33#8 .unknownCode []) ∧
    up.taking (frameTaken ask 0x10#8 []) = .next (up.replied ask 0x10#8 .badLength []) ∧
    up.taking (frameTaken ask 0x72#8 [4#8]) = .next (up.replied ask 0x72#8 .badArg []) := ⟨rfl, rfl, rfl⟩

theorem test_part_and_setup_met :
    State.reset.hears ask ∧ up.admits ask ∧ (⟨0#8, 99#8, 9#8, 0#8⟩ : RawDesignation).present = 0#8 := by decide

/-! ## Groups and the pool -/

theorem test_group_open_met :
    up.admits ask ∧ (up.group 7).state = .empty ∧ (up.group 7).records = [] ∧ (grouped .opened []).admits ask ∧
    ((grouped .opened []).group 0).state ≠ .empty := by decide

theorem test_group_add_met :
    (grouped .opened []).admits ask ∧ (8#8).toNat = 8 ∧ ((grouped .opened []).group 0).state = .opened ∧
    (equipped.recordTaken ⟨1#8, 0#8, 255#16, 0#8, 0#16, [255#32]⟩ = some write) ∧
    (equipped.recordTaken ⟨1#8, 0#8, 256#16, 0#8, 0#16, [255#32]⟩ = none) ∧
    (equipped.recordTaken ⟨1#8, 0#8, 255#16, 0#8, 0#16, [256#32]⟩ = none) ∧ up.gtb.free = 256 ∧
    ({ up.gtb with free := 0 } : Gtb).free = 0 := by decide +kernel

theorem test_record_forms :
    equipped.recordTaken ⟨2#8, 0#8, 254#16, 0#8, 0#16, [1#32, 2#32]⟩ = some (.run 0 254#16 [1#32, 2#32]) ∧
    equipped.recordTaken ⟨2#8, 0#8, 255#16, 0#8, 0#16, [1#32, 2#32]⟩ = none ∧
    equipped.recordTaken ⟨3#8, 0#8, 1#16, 0xFF#8, 0#16, [1#32, 2#32]⟩ = some (.scatter 0 1#16 .down [1#32, 2#32]) ∧
    equipped.recordTaken ⟨3#8, 0#8, 0#16, 0xFF#8, 0#16, [1#32, 2#32]⟩ = none ∧
    equipped.recordTaken ⟨3#8, 0#8, 0#16, 2#8, 0#16, [1#32]⟩ = none ∧
    equipped.recordTaken ⟨4#8, 0#8, 0#16, 1#8, 1024#16, [3#32, 1#32]⟩ = some (.poll 0 0#16 3#32 1#32 1024#16 1#8) ∧
    equipped.recordTaken ⟨4#8, 0#8, 0#16, 1#8, 1025#16, [3#32, 1#32]⟩ = none ∧
    equipped.recordTaken ⟨5#8, 3#8, 65535#16, 0#8, 0#16, []⟩ = some (.wait 3 65535#16) ∧
    equipped.recordTaken ⟨5#8, 4#8, 1#16, 0#8, 0#16, []⟩ = none ∧
    equipped.recordTaken ⟨6#8, 3#8, 0#16, 0#8, 0#16, [9#32]⟩ = some (.setpoint 3 9#32) ∧
    equipped.recordTaken ⟨7#8, 0#8, 0#16, 0#8, 0#16, [9#32]⟩ = none := by decide +kernel

theorem test_group_close_drop_met :
    (grouped .opened [write]).admits ask ∧ ((grouped .opened [write]).group 0).records ≠ [] ∧
    ((grouped .opened []).group 0).records = [] ∧ ((grouped .ready []).group 0).state ≠ .opened ∧
    ((grouped .armed []).group 0).state ≠ .ready ∧ ((grouped .ready [write]).group 0).pins = 0 ∧
    (((grouped .ready [write]).setGroup 0 { GroupEntry.reset with state := .ready, pins := 1 }).group 0).pins ≠ 0 := by
  decide

theorem test_group_edit_met :
    (grouped .ready [write]).admits ask ∧ ((grouped .armed [write]).group 0).state = .armed ∧
    ((grouped .ready [write]).group 0).records[(0#8).toNat]? = some write ∧
    ((grouped .ready [write]).group 0).records.length ≤ (1#8).toNat ∧
    write.edited equipped.tgt [255#32] = some write ∧ write.edited equipped.tgt [256#32] = none ∧
    (Record.wait 0 1#16).edited equipped.tgt [65535#32] = some (.wait 0 65535#16) ∧
    (Record.single 0 255#16 0#32).edited equipped.tgt [1#32] = some (.single 0 255#16 1#32) ∧
    (Record.single 0 256#16 0#32).edited equipped.tgt [1#32] = none ∧
    (Record.wait 0 1#16).edited equipped.tgt [65536#32] = none := by decide +kernel

theorem test_group_reads_met :
    up.admits ask ∧ ((0#8 : Byte).toNat < ((grouped .ready [write]).group 0).records.length) ∧
    (up.group 0).records = [] ∧ ((grouped .ready [write]).group 0).records.length ≤ (1#8 : Byte).toNat := by decide

theorem test_arm_met :
    (grouped .ready [write]).admits ask ∧ ((grouped .ready [write]).group 0).state = .ready ∧
    (up.group 0).state ≠ .ready ∧ (∀ a ∈ up.sau.arm, a.group ≠ 0) ∧
    (∃ a ∈ (armed .armed 0#8 .once).sau.arm, a.group = 0) ∧ ((armed .armed 0#8 .once).group 0).state = .armed ∧
    ((armed .launching 0#8 .every).group 0).state = .launching := by decide

theorem test_apply_runs :
    ∃ t : State, exec (.groupApply ask 0#8) ((grouped .ready [.wait 0 1#16])) = .next t ∧
      (t.group 0).state = .launching ∧ (t.account 0).pending = 1 ∧
      ((t.lane 0).flight.map (·.part)) = some .hold := ⟨_, rfl, by decide +kernel⟩

theorem test_lane_goes_met :
    ((up.appendJob 3 (.read 9#8 0 0#16)).lane 3).queue = .read 9#8 0 0#16 :: [] ∧
    ((up.appendJob 3 (.read 9#8 0 0#16)).lane 3).flight = none ∧ (up.lane 3).queue = [] := by decide

theorem test_record_lanes :
    (looped .stopped .none).recordLane (.setpoint 0 0#32) = 0 ∧ up.recordLane (.setpoint 3 0#32) = 0 ∧
    up.recordLane (.wait 3 1#16) = 3 ∧
    (equipped.setTarget 15 ⟨{ device with lane := 3 }, none⟩).recordLane (.run 15 0#16 [1#32, 2#32]) = 3 := by decide

/-- Group 0 launching with one record in HOLD and one queued on lane 0. -/
def launched : State :=
  (((grouped .launching [.wait 0 1#16, .wait 0 2#16]).setAccount 0 ⟨2, false, false⟩).setLane 0
    ⟨.i2c .khz400, [.record 0 1 (.wait 0 2#16)], some (flight (.record 0 0 (.wait 0 1#16)) .hold), []⟩)

theorem test_abort_met :
    launched.admits ask ∧ (launched.group 0).state = .launching ∧ (up.group 0).state ≠ .launching ∧
    launched.abortCount 0 = 2 ∧ launched.abortCount 0 = (launched.account 0).pending ∧ launched.armLaw ∧
    launched.pendingLaw := by decide +kernel

/-- The reply of an abort is taken before the N.DONE that joins in its step, whatever the free value (R206). -/
theorem test_abort_runs :
    ((launched.accepted ask 0x1A#8).hpt.outstanding.any fun o => o.tag == ask.tag) = true ∧
    ∃ t : State, exec (.groupAbort ask 0#8) launched = .next t ∧ (t.group 0).state = .ready ∧
      (t.group 0).lastOutcome = .aborted ∧ (t.group 0).withdrawn = 2 ∧ (t.lane 0).flight = none ∧
      t.hpt.sending = some ⟨frameBytes 1#8 0x9A#8 [0#8, 2#8, 0#8, 0#8], false⟩ ∧ t.hpt.notices.map (·.code) = [1#8] := by
  exact ⟨rfl, _, rfl, by decide +kernel⟩

theorem test_record_end_met :
    (launched.account 0).pending = 1 + 1 ∧ ((launched.recordEnd 0 0 .done).account 0).pending = 0 + 1 ∧
    (launched.group 0).firstFailure = none ∧
    ((launched.recordEnd 0 0 (.failed .nak none)).group 0).firstFailure ≠ none := by decide +kernel

theorem test_outcomes_met :
    launchOutcome ⟨0, true, true⟩ GroupEntry.reset = .aborted ∧ launchOutcome ⟨0, false, true⟩ GroupEntry.reset = .cut ∧
    launchOutcome ⟨0, false, false⟩ GroupEntry.reset = .applied ∧
    launchOutcome ⟨0, false, false⟩ { GroupEntry.reset with records := [write] } = .torn ∧
    launched.hpt.notices.length < 16 ∧ 16 ≤ (List.replicate 16 (⟨1#8, []⟩ : Notice)).length := by decide

/-! ## Targets and lanes -/

theorem test_target_set_met :
    up.admits ask ∧ up.inUse 0 = false ∧ (grouped .armed [write]).inUse 0 = true ∧
    targetCfgOf ⟨1#8, 3#8, 0x78#8, 1#8, 1#8, 1#8, 1#8, 3#8, 1#8⟩ = none ∧
    targetCfgOf ⟨1#8, 0#8, 0x77#8, 1#8, 1#8, 1#8, 1#8, 1#8, 1#8⟩ = some device ∧
    device.fitsKind (up.lane 0).settings = true ∧ device.fitsKind (.spi .mhz1 .mode0) = false ∧
    (∃ u, u ≠ (1 : Fin 16) ∧ (equipped.target u).cfg.enabled = true ∧ (equipped.target u).cfg.lane = device.lane ∧
      (equipped.target u).cfg.address = device.address) ∧
    (∀ u, u ≠ (0 : Fin 16) → (up.target u).cfg.enabled = true → (up.target u).cfg.lane = device.lane →
      (up.target u).cfg.address ≠ device.address) ∧ device.inRange = true := by decide +kernel

theorem test_target_read_met :
    equipped.admits ask ∧ (up.target 0).cfg.enabled = false ∧ (equipped.target 0).cfg.enabled = true ∧
    (255#16).toNat ≤ (equipped.target 0).cfg.regWidth.last ∧ (equipped.target 0).cfg.regWidth.last < (256#16).toNat ∧
    (equipped.target 0).fault = none ∧ ((equipped.setTarget 0 ⟨device, some .nak⟩).target 0).fault ≠ none := by decide

theorem test_lane_set_met :
    laneSettingsOf ⟨1#8, 25000#16, 1#8, 3#8⟩ = some (.spi .mhz25 .mode3) ∧
    laneSettingsOf ⟨0#8, 100#16, 0#8, 0#8⟩ = some (.i2c .khz100) ∧ (up.lane 3).flight = none ∧ (up.lane 3).queue = [] ∧
    (launched.lane 0).flight ≠ none ∧ (∃ t, (equipped.target t).cfg.enabled = true ∧ (equipped.target t).cfg.lane = 0) ∧
    (∀ t, (up.target t).cfg.enabled = true → (up.target t).cfg.lane ≠ 3) := by decide +kernel

theorem test_lane_settings_ends :
    laneSettingsOf ⟨1#8, 25000#16, 1#8, 2#8⟩ = none ∧ laneSettingsOf ⟨0#8, 400#16, 1#8, 0#8⟩ = none ∧
    laneSettingsOf ⟨0#8, 5000#16, 0#8, 0#8⟩ = none ∧ laneSettingsOf ⟨1#8, 400#16, 1#8, 0#8⟩ = none ∧
    laneSettingsOf ⟨2#8, 400#16, 0#8, 0#8⟩ = none := by decide

/-- A SCATTER for a target that is not enabled is turned away with an item index of its own. -/
theorem test_scatter_turned_away :
    (Job.record 0 0 (.scatter 0 0#16 .up [1#32])).target = some 0 ∧ (up.target 0).cfg.enabled = false ∧
    up.isStale (.record 0 0 (.scatter 0 0#16 .up [1#32])) = false ∧ ([1#32] : List Val) ≠ [] ∧
    ∃ k, up.dispatch 0 (.record 0 0 (.scatter 0 0#16 .up [1#32])) =
      (up.recordEnd 0 0 (.failed .badTarget (some k))).drawn :=
  ⟨rfl, rfl, rfl, by decide, _, rfl⟩

theorem test_dispatch_met :
    (Job.record 0 0 write).target = some 0 ∧ equipped.isStale (.record 0 0 write) = false ∧
    write.fits device = true ∧ write.fits { device with regWidth := .one, dataWidth := .one } = true ∧
    (Record.single 0 256#16 0#32).fits device = false ∧ (Job.read 9#8 0 255#16).reads = true ∧
    (Job.record 0 0 write).reads = false ∧
    (((looped .tracking .output).setLoop 0 { (looped .tracking .output).loop 0 with stale := true }).loop 0).stale = true := by
  decide

theorem test_acknowledged_met :
    (flying (flight (.record 0 0 write) .write)).live = true ∧
    ((flying (flight (.record 0 0 write) .write)).lane 0).flight = some (flight (.record 0 0 write) .write) ∧
    device.verify = true ∧ { device with verify := false }.verify = false ∧
    ([255#8] : List Byte).length = ((Job.record 0 0 write).written 0).length * device.dataWidth.bytes ∧
    [255#8] = ((Job.record 0 0 write).written 0).flatMap device.dataWidth.busBytes ∧
    [254#8] ≠ ((Job.record 0 0 write).written 0).flatMap device.dataWidth.busBytes := by decide +kernel

theorem test_write_bytes_on_the_bus :
    writeWire (.i2c .khz400) device 255#16 [255#32] =
      [.start, .send 0xEE#8, .send 255#8, .send 255#8, .stop] ∧
    readWire (.i2c .khz400) device 3#16 2 =
      [.start, .send 0xEE#8, .send 3#8, .repeatedStart, .send 0xEF#8, .takeAck, .takeNak, .stop] := by decide

/-- The wire forms at their ends: a two-byte register and four-byte values, on I2C and on SPI (R44, R45). -/
theorem test_wire_met :
    device.address = .i2c 0x77#8 ∧ 0 < 1 * device.dataWidth.bytes ∧
    DataWidth.four.busBytes 0x01020304#32 = [1#8, 2#8, 3#8, 4#8] ∧ busValue [1#8, 2#8, 3#8, 4#8] = 0x01020304#32 ∧
    writeWire (.spi .mhz1 .mode0) { device with address := .selectB, regWidth := .two, dataWidth := .two } 0x0102#16
        [0x0304#32] =
      [.assertSelect true, .send 0x2A#8, .send 1#8, .send 2#8, .send 3#8, .send 4#8, .releaseSelect true] ∧
    readWire (.spi .mhz1 .mode0) { device with address := .selectA } 3#16 1 =
      [.assertSelect false, .send 0x2B#8, .send 3#8, .take, .releaseSelect false] := by decide

theorem test_failure_met :
    ((flying (flight (.record 0 0 write) .write)).lane 0).settings.isI2c = true ∧
    (flight (.record 0 0 write) .write).attempt ≤ device.retries.val ∧
    device.retries.val < { flight (.record 0 0 write) .write with attempt := 2 }.attempt ∧
    (Job.record 0 0 write).target = some 0 ∧ (equipped.target 0).fault = none ∧
    ((equipped.setTarget 0 ⟨device, some .nak⟩).target 0).fault ≠ none := by decide +kernel

/-- A write in flight on lane 0 with its bytes. -/
def onWire (c : LaneSettings) : State :=
  equipped.setLane 0
    ⟨c, [], some { flight (.record 0 0 write) .write with wire := writeWire c device 255#16 [255#32] }, []⟩

theorem test_nak_places :
    (onWire (.i2c .khz400)).live = true ∧
    writeWire (.i2c .khz400) device 255#16 [255#32] = [.start] ++ .send 0xEE#8 :: [.send 255#8, .send 255#8, .stop] ∧
    writeWire (.i2c .khz400) device 255#16 [255#32] = [.start, .send 0xEE#8, .send 255#8] ++ .send 255#8 :: [.stop] ∧
    [BusSym.start].countP BusSym.isSend = 0 ∧ [BusSym.start, .send 0xEE#8, .send 255#8].countP BusSym.isSend = 2 ∧
    2 ≤ (writeWire (.i2c .khz400) device 255#16 [255#32]).length := by decide

/-- The address byte not acknowledged: the stop condition follows, and the attempt is made again. -/
theorem test_nak_runs :
    ∃ t : State, exec (.transactionEnd 0 (.nak 0)) (onWire (.i2c .khz400)) = .next t ∧
      (t.lane 0).bus = [.start, .send 0xEE#8, .stop] ∧ ((t.lane 0).flight.map (·.attempt)) = some 2 :=
  ⟨_, rfl, by decide +kernel⟩

theorem test_scatter_poll_wait_met :
    (flight (.record 0 0 (.scatter 0 0#16 .up [1#32, 2#32])) .write).item + 1 < [1#32, 2#32].length ∧
    [1#32].length = (flight (.record 0 0 (.scatter 0 0#16 .up [1#32])) .write).item + 1 ∧
    busValue [1#8] &&& 3#32 = 1#32 ∧ busValue [2#8] &&& 3#32 ≠ 1#32 ∧
    (flight (.record 0 0 (.poll 0 0#16 3#32 1#32 2#16 1#8)) .read).reads + 1 < (2#16).toNat ∧
    (1#16).toNat ≤ (flight (.record 0 0 (.poll 0 0#16 3#32 1#32 1#16 1#8)) .read).reads + 1 ∧
    (launched.lane 0).flight = some (flight (.record 0 0 (.wait 0 1#16)) .hold) := by decide +kernel

theorem test_wait_runs :
    ∃ t : State, exec (.waitExpiry 0) launched = .next t ∧ (t.group 0).done = 1 ∧ (t.lane 0).queue = [] ∧
      ((t.lane 0).flight.map (·.job)) = some (.record 0 1 (.wait 0 2#16)) := ⟨_, rfl, by decide +kernel⟩

/-- Four lanes with reports to make, each lane's own kept in order. -/
theorem test_report_order :
    reportOrder id 3 (fun l => if l = 0 then 2 else if l = 3 then 1 else 0) = [0, 3, 0] ∧
    launched.cutOrder = [0, 0] := by decide +kernel

theorem test_lanes_reset_met :
    launched.raised = 0 ∧ up.admits ask ∧ (looped .settled .measure |>.loop 0).state.running = true ∧
    (looped .faulted .none |>.loop 0).state.running = false ∧ launched.pendingLaw ∧
    (launched.account 0).pending ≠ 0 ∧ (launched.account 7).pending = 0 ∧
    (launched.lane 0).flight = some (flight (.record 0 0 (.wait 0 1#16)) .hold) ∧ (launched.lane 3).flight = none ∧
    ((onWire (.spi .mhz1 .mode0)).lane 0).settings.isI2c = false ∧
    ((onWire (.spi .mhz1 .mode0)).lane 0).flight.isSome = true := by decide +kernel

/-- A cut of a launch with one record in HOLD and one queued: one N.DONE, with the outcome CUT. -/
theorem test_cut_notices :
    ∃ t : State, exec (.partResetLanes ask) { launched with hpt := (sending false [] []).hpt } = .next t ∧
      (t.lane 0).bus = [] ∧ t.hpt.notices.map (fun n => (n.code, n.payload.take 2)) = [(1#8, [0#8, 4#8])] ∧
      t.hpt.replies = [⟨1#8, 0xF2#8, [0#8], false⟩] ∧ t.hpt.cut = .past := ⟨_, rfl, by decide +kernel⟩

/-- A transmitter that is free all the while takes the reset's reply first; the CUT notice waits (R206). -/
theorem test_cut_reply_first :
    ∃ t : State, exec (.partResetLanes ask) launched = .next t ∧
      t.hpt.sending = some ⟨frameBytes 1#8 0xF2#8 [0#8], false⟩ ∧ t.hpt.notices.map (·.code) = [1#8] ∧ t.hpt.replies = [] ∧
      t.hpt.cut = .clear := ⟨_, rfl, by decide +kernel⟩

/-- A frame whose end is reported right after a partial reset ended inside it or after it: the CUT notice goes first, or the
reply (R206). -/
theorem test_end_in_reset :
    let s : State := { sending false [⟨1#8, 0xF2#8, [0#8], false⟩] [⟨1#8, []⟩] with
      hpt := { (sending false [⟨1#8, 0xF2#8, [0#8], false⟩] [⟨1#8, []⟩]).hpt with cut := .past } }
    s.live = true ∧ s.hpt.cut = .past ∧
    ({ s.hpt with sending := none } : Hpt).takeNotice.sending = some ⟨frameBytes 0#8 1#8 [0#8], false⟩ ∧
    s.freed.hpt = (if Config.endedInReset s.fresh then ({ s.hpt with sending := none } : Hpt).takeNotice
      else { s.hpt with sending := none }) ∧ s.freed.fresh = s.fresh + 1 :=
  ⟨rfl, rfl, by decide +kernel, rfl, rfl⟩

/-- A running loop under the reset, with a SCATTER in flight that has written to its output register: the loop adopts the
item, and a loop of another register keeps what it holds (R86, R122, R126). -/
theorem test_cut_adopts :
    let f := { flight (.record 0 0 (.scatter 0 254#16 .up [7#32, 8#32, 9#32])) .write with item := 2 }
    let s := (looped .settled .output).setFlight 0 (some f)
    (s.loop 0).state.running = true ∧ (s.cutLanes.loop 0).output = 8#32 ∧ (s.cutLanes.loop 0).state = .tracking ∧
    (((looped .settled .output).setFlight 0 (some { f with item := 1 })).cutLanes.loop 0).output = 90#32 := by
  decide +kernel

/-- `up` with a job of loop 0 queued behind a group write on lane 0, the lane as the record's end leaves it. -/
def written : State := up.setLane 0 ⟨.i2c .khz400, [.loop 0 .output 0 7#16 5#32], none, []⟩

/-- The two orders of a hand-on and the taking of the loop job behind it (R124): a lane that takes its next head, and one
at whose head a record of the group waits. -/
theorem test_hand_over_met :
    (∃ j ∈ (written.lane 0).queue, j.ofTlu = true) ∧ (∀ j ∈ (up.lane 0).queue, j.ofTlu = false) ∧
    (written.lane 0).flight = none ∧ (written.lane 0).queue = Job.loop 0 .output 0 7#16 5#32 :: [] ∧
    (Job.loop 0 .output 0 7#16 5#32).ofGroup 0 = false ∧ ((written.takePast 0 0 1).lane 0).queue = [] ∧
    (up.lane 0).queue = [] ∧ (launched.lane 0).flight ≠ none ∧
    (∃ i r q, (launched.lane 0).queue = .record 0 i r :: q) ∧ written.readyLanes = [0] ∧ up.readyLanes = [] := by
  refine ⟨?_, ?_, ?_, ?_, ?_, ?_, ?_, ?_, ⟨_, _, _, rfl⟩, ?_, ?_⟩ <;> decide +kernel

/-- An IDLE lane with a record of the group at its head, and a loop job behind it, stays for that record (R86, R124). -/
theorem test_take_past_stays :
    let s := up.setLane 0 ⟨.i2c .khz400, [.record 0 1 write, .loop 0 .output 0 7#16 5#32], none, []⟩
    (s.lane 0).flight = none ∧ (∃ j ∈ (s.lane 0).queue, j.ofTlu = true) ∧
    ((s.takePast 0 0 2).lane 0).queue = (s.lane 0).queue := by decide +kernel

/-- The lanes settle in STARTING too, as after the read of the setup area. -/
theorem test_settle_starting :
    let s := { written with suc := State.reset.suc }
    s.suc.phase = .starting ∧ (s.lane 0).queue ≠ [] ∧ (s.settleLanes.lane 0).queue = [] := by decide +kernel

/-! ## Sync lines -/

/-- `armed` with an open window over group 0. -/
def windowed : State :=
  (armed .launching 0#8 .once).setLine .sync0 { SyncLine.reset with window := 6000#16, opened := some ⟨1#16, [0]⟩ }

theorem test_sync_met :
    up.admits ask ∧ (6000#16).toNat ≤ 6000 ∧ (windowed.line .sync0).opened = some ⟨1#16, [0]⟩ ∧
    (up.line .sync0).opened = none ∧ windowed.live = true := by decide

/-- A pulse that loses an occurrence: its N.OVERRUN is sent before the reply or waits behind it (R206). -/
theorem test_pulse_overrun_met :
    (armed .launching 0#8 .every).lost .sync0 = [0] ∧
    ∀ now : Bool, ((up.hpt.join ⟨2#8, []⟩ 0).atOnce now).sending =
      if now then some ⟨frameBytes 0#8 2#8 [0#8], false⟩ else none := by decide +kernel

/-- A pulse whose walk loses an occurrence of group 0, with a record of group 1 that ends as its lane takes it after the
reply, while a frame is being sent and `ns` wait. -/
def pulsed (ns : List Notice) : State :=
  { (((armed .launching 0#8 .every).setGroup 1 { GroupEntry.reset with state := .launching, records := [.setpoint 0 0#32] }
      ).setAccount 1 ⟨1, false, false⟩).setLane 1 ⟨.i2c .khz400, [.record 1 0 (.setpoint 0 0#32)], none, []⟩ with
    hpt := (sending false [] ns).hpt }

/-- The N.OVERRUN that joined before the pulse's reply keeps its place: the other group's N.DONE joins behind it, and with
15 notices waiting it is the one dropped, whatever the free values (R195, R206). -/
theorem test_pulse_keeps_overrun :
    (pulsed []).admits ask ∧
    (∃ t : State, exec (.syncPulse ask 0#8) (pulsed []) = .next t ∧ t.hpt.notices.map (·.code) = [2#8, 1#8] ∧
      t.hpt.replies = [⟨1#8, 0xB1#8, [0#8, 1#8, 0#8, 0#8], false⟩] ∧ t.hpt.lost = false) ∧
    ∃ t : State, exec (.syncPulse ask 0#8) (pulsed (List.replicate 15 ⟨5#8, []⟩)) = .next t ∧
      t.hpt.notices.map (·.code) = List.replicate 15 5#8 ++ [2#8] ∧ t.hpt.lost = true :=
  ⟨by decide, ⟨_, rfl, by decide +kernel⟩, _, rfl, by decide +kernel⟩

/-- Which notices of its step a notice may join ahead of: an N.LOOP of an N.OVERRUN or an N.DONE, an N.DONE of the
N.OVERRUN of another group; none of its own block's, of an N.FAULT's, or of a notice of an earlier step (R195). -/
theorem test_notices_pass :
    let queue (l : List Notice) : Hpt := { up.hpt with notices := l }
    (queue [⟨2#8, [0#8]⟩]).passable 1 ⟨4#8, [0#8]⟩ = 1 ∧ (queue [⟨2#8, [0#8]⟩, ⟨1#8, [1#8]⟩]).passable 2 ⟨4#8, [0#8]⟩ = 2 ∧
    (queue [⟨2#8, [0#8]⟩]).passable 1 ⟨1#8, [1#8]⟩ = 1 ∧ (queue [⟨2#8, [1#8]⟩]).passable 1 ⟨1#8, [1#8]⟩ = 0 ∧
    (queue [⟨4#8, [0#8]⟩]).passable 1 ⟨4#8, [1#8]⟩ = 0 ∧ (queue [⟨3#8, [0#8]⟩]).passable 1 ⟨4#8, [0#8]⟩ = 0 ∧
    (queue [⟨2#8, [0#8]⟩]).passable 0 ⟨4#8, [0#8]⟩ = 0 ∧
    ((queue [⟨2#8, [0#8]⟩]).join ⟨4#8, []⟩ 1).notices = [⟨4#8, []⟩, ⟨2#8, [0#8]⟩] ∧
    ((queue (List.replicate 16 ⟨2#8, []⟩)).join ⟨4#8, []⟩ 1).notices = List.replicate 15 ⟨2#8, []⟩ ++ [⟨4#8, []⟩] := by
  decide +kernel

/-- An edge with two groups due: the loops' place among the launches is one of three. -/
theorem test_loops_place : atMost 0 5 = 0 ∧ atMost 2 3 = 0 ∧ atMost 2 4 = 1 ∧ atMost 2 5 = 2 ∧
    (up.dueAt .sync0 = []) := by decide +kernel

theorem test_walk_runs :
    (armed .armed 1#8 .once).walk .sync0 (armed .armed 1#8 .once).sau.arm = ⟨[⟨0, .sync0, 3#8, 0#8, .once⟩], []⟩ ∧
    (armed .armed 0#8 .once).walk .sync0 (armed .armed 0#8 .once).sau.arm = ⟨[], [0]⟩ ∧
    (armed .armed 0#8 .every).walk .sync0 (armed .armed 0#8 .every).sau.arm = ⟨[⟨0, .sync0, 3#8, 3#8, .every⟩], [0]⟩ ∧
    (armed .launching 0#8 .once).walk .sync0 (armed .launching 0#8 .once).sau.arm =
      ⟨[⟨0, .sync0, 3#8, 3#8, .once⟩], []⟩ := by decide

/-- A line at a level, the filter at another. -/
def filtering (e : EdgeSel) (hold : Bool) (level : Bool) : State :=
  (up.setPinLevel .sync1 level).setLine .sync1 { SyncLine.reset with edge := e, filtered := some (!level), hold := hold }

theorem test_filter_met :
    (filtering .both true true).live = true ∧ ((filtering .both true true).line .sync1).hold = true ∧
    ((filtering .both false true).line .sync1).hold = false ∧ (filtering .falling true false).pinLevel .sync1 = false ∧
    ((filtering .falling true false).line .sync1).filtered = some (!false) ∧ (up.line .sync1).filtered ≠ some (!true) ∧
    ((filtering .falling true true).line .sync1).edge = .falling := by decide

/-! ## Trim loops -/

/-- `looped` with one job of the loop out, in flight on lane 0. -/
def jobOut (st : LoopState) (cy : Cycle) (k : LoopJobKind) : State :=
  ((looped st cy).setLoop 0 { (looped st cy).loop 0 with jobsOut := 1 }).setFlight 0
    (some (flight (.loop 0 k 0 255#16 1#32) .write))

/-- A measure out, a write out, and a leftover of a loop that has stopped (R111). -/
theorem test_jobs_law_met :
    (jobOut .tracking .measure .measure).jobsLaw ∧ (jobOut .limited .output .output).jobsLaw ∧
    (jobOut .stopped .none .follower).jobsLaw ∧ ¬ (jobOut .tracking .none .output).jobsLaw := by
  refine ⟨?_, ?_, ?_, ?_⟩ <;> decide +kernel

/-- The items of a LOOP.SET that is taken. -/
def rawLoop : RawLoop :=
  ⟨0#8, 16#8, 0#8, 1#16, 0#8, 255#16, 50#32, 1#16, 2#32, 2#32, 10#32, 90#32, 1#8, 1#8, 90#32, 1#8, 1#8, 15#8, 255#16,
    [(0#32, 1#32), (91#32, 2#32)]⟩

theorem test_loop_set_met :
    equipped.admits ask ∧ rawLoop.points.length ≤ 8 ∧ (loopCfgOf rawLoop).isSome = true ∧
    loopCfgOf { rawLoop with period := 17#8 } = none ∧ loopCfgOf { rawLoop with min := 91#32 } = none ∧
    loopCfgOf { rawLoop with points := [(0#32, 1#32)] } = none ∧ loopCfg.fits equipped.tgt = true ∧
    { loopCfg with max := 256#32 }.fits equipped.tgt = false ∧ ((looped .limited .none).loop 0).state.running = true ∧
    ((looped .stopped .none).loop 0).state.running = false := by decide +kernel

theorem test_loop_fields :
    (loopCfgOf { rawLoop with followerTarget := 0#8 }) = none ∧ (loopCfgOf { rawLoop with followerTarget := 16#8 }) = none ∧
    (loopCfgOf { rawLoop with followerPresent := 2#8 }) = none ∧ rawLoop.followerPresent = 1#8 ∧
    ((loopCfgOf { rawLoop with followerPresent := 0#8 }).map (·.follower)) = some none ∧
    ((loopCfgOf rawLoop).map (·.follower)) = some (some ⟨15, 255#16, rawLoop.points⟩) := by decide +kernel

theorem test_loop_start_met :
    (looped .stopped .none).startRefusal 0 = none ∧ up.startRefusal 0 = some .notConfigured ∧
    (looped .tracking .none).startRefusal 0 = some .wrongState ∧
    ((looped .stopped .none).setTarget 0 ⟨{ device with enabled := false }, none⟩).startRefusal 0 = some .badArg ∧
    ((looped .stopped .none).setTarget 0 ⟨device, some .nak⟩).startRefusal 0 = some .targetFaulted ∧
    ((looped .stopped .none).setLoop 0 { (looped .stopped .none).loop 0 with jobsOut := 1 }).startRefusal 0 =
      some .laneBusy ∧
    ((looped .stopped .none).loop 0).cfg.follower = none ∧
    ((looped .stopped .none { loopCfg with follower := some follower }).loop 0).cfg.follower = some follower := by
  decide +kernel

theorem test_loop_start_runs :
    ∃ t : State, exec (.loopStart ask 0#8) (looped .stopped .none { loopCfg with follower := some follower }) = .next t ∧
      (t.loop 0).state = .tracking ∧ (t.loop 0).jobsOut = 2 ∧ (t.loop 0).lastFollower = 1#32 ∧
      (t.lane 0).queue = [.loop 0 .followerSeed 0 7#16 1#32] := ⟨_, rfl, by decide +kernel⟩

theorem test_loop_stop_met :
    (looped .faulted .none).admits ask ∧ (up.loop 3).state = .stopped ∧ ((looped .faulted .none).loop 0).state ≠ .stopped := by
  decide

theorem test_lookup_met :
    follower.points.Pairwise (fun p q => p.1.toNat < q.1.toNat) ∧ follower.lookup 90#32 = 1#32 ∧
    follower.lookup 91#32 = 2#32 ∧ (⟨0, 0#16, [(5#32, 9#32), (6#32, 8#32)]⟩ : Follower).lookup 4#32 = 9#32 := by
  decide +kernel

theorem test_decision_met :
    ((looped .tracking .measure).measured 0 48#32 |>.loop 0).state = .settled ∧
    ((looped .settled .measure).measured 0 45#32 |>.loop 0).state = .settled ∧
    ((looped .settled .measure).measured 0 44#32 |>.loop 0).state = .limited ∧
    ((looped .limited .measure).measured 0 47#32 |>.loop 0).state = .limited ∧
    ((looped .tracking .measure).measured 0 53#32 |>.loop 0).cycle = .output ∧
    loopCfg.min.toNat ≤ loopCfg.max.toNat ∧ loopCfg.adjusted 90#32 1 = 90#32 ∧ loopCfg.adjusted 10#32 (-1) = 10#32 ∧
    { loopCfg with fast := true }.adjusted 50#32 21 = 54#32 ∧ { loopCfg with fast := true }.adjusted 50#32 20 = 51#32 := by
  decide +kernel

theorem test_loop_edge_met :
    ((looped .stopped .none).loop 0).state.running = false ∧ ((looped .tracking .none).loop 0).cfg.line = .sync0 ∧
    ((looped .tracking .none).loop 0).cfg.period.toNat ≤ ((looped .tracking .none).loop 0).edgeCount + 1 ∧
    ((looped .tracking .none { loopCfg with period := 16#8 }).loop 0).edgeCount + 1 <
      ((looped .tracking .none { loopCfg with period := 16#8 }).loop 0).cfg.period.toNat ∧
    ((looped .tracking .output).loop 0).cycle ≠ .none ∧
    ((254#16, 1#32) : Half × Val).1 ≠ ((looped .tracking .none).loop 0).cfg.outReg ∧
    [(255#16, 1#32)] = [] ++ (((looped .tracking .none).loop 0).cfg.outReg, 1#32) :: [] := by decide +kernel

/-- The output job in flight at an adoption marks the cycle stale. -/
theorem test_adopt_in_flight :
    ((((looped .settled .output).setFlight 0 (some (flight (.loop 0 .output 0 255#16 1#32) .write))).adopt 0
      [(255#16, 1#32)] 0).loop 0).stale = true ∧
    (((looped .settled .output).adopt 0 [(255#16, 1#32)] 0).loop 0).stale = false := by decide +kernel

theorem test_loop_job_met :
    ((looped .tracking .output).loop 0).cycle ≠ .none ∧ ((looped .tracking .none).loop 0).cycle = .none ∧
    ((looped .limited .output).loopJobEnd 0 .output 0 255#16 (.success 7#32) |>.loop 0).output = 7#32 ∧
    ((looped .tracking .measure).loopJobEnd 0 .measure 0 1#16 (.success 48#32) |>.loop 0).state = .settled ∧
    ((looped .limited .output).loopJobEnd 0 .output 0 255#16 .skipped |>.loop 0).state = .faulted := by decide +kernel

/-! ## The profile store -/

theorem test_guards_met :
    up.admits ask ∧ (32#8).toNat = 32 ∧ ((guarded true true).slot 31).isLocked = true ∧
    ((guarded true false).slot 31).isLocked = false ∧ ((guarded false false).slot 31).isProtected = false ∧
    ((guarded true false).slot 31).isProtected = true := by decide

theorem test_store_accept_met :
    (guarded false false).admits ask ∧ ((grouped .launching [write]).group 0).state = .launching ∧
    (up.group 0).state = .empty ∧ payloadLength [write] ≤ 4064 ∧ 4064 < payloadLength (List.replicate 339 write) ∧
    payloadLength (List.replicate 338 write) ≤ 4064 ∧ up.psc.frozen = false ∧
    { up.psc with frozen := true }.frozen = true ∧ (engaged (.reading loading)).psc.engine ≠ .idle := by decide +kernel

theorem test_store_accept_runs :
    ∃ t : State, exec (.slotErase ask 31#8) (guarded false false) = .next t ∧
      t.psc.engine = .erasing ⟨⟨.erase 31, some 1#8, 0⟩, [], none⟩ ∧ (t.slot 31).state = .busy ∧
      Memory.read t.nv.mem (31 * 4096) = 0#8 ∧ t.hpt.outstanding = [⟨1#8, 0x52#8⟩] := ⟨_, rfl, by decide +kernel⟩

/-- The start's internal load is accepted in STARTING (R171, R183). -/
theorem test_accept_starting :
    State.reset.suc.phase = .starting ∧ State.reset.psc.engine = .idle ∧
    (State.reset.accept (.load 31 0) none).psc.engine = .reading ⟨.load 31 0, none, 0⟩ := by decide +kernel

/-- The ways an acceptance leads on: a choice at IDLE with a load, an erase under way with a load to suspend for, one with
its guard running, and a read under way. -/
theorem test_accept_met :
    up.psc.engine = .idle ∧ (up.accept (.load 0 0) none).psc.engine = .reading ⟨.load 0 0, none, 0⟩ ∧
    ((guarded false false).accept (.erase 31) none).psc.engine = .erasing ⟨⟨.erase 31, none, 0⟩, [], none⟩ ∧
    ((engaged (.erasing saving)).accept (.load 0 0) none).psc.suspending = true ∧
    (State.accept { engaged (.erasing saving) with psc := { (engaged (.erasing saving)).psc with guard := true } }
      (.load 0 0) none).psc.suspending = false ∧
    ((engaged (.erasing saving)).accept (.erase 0) none).psc.suspending = false ∧
    ((engaged (.reading loading)).accept (.erase 0) none).psc.queue = [⟨.erase 0, none, 0⟩] := by decide +kernel

theorem test_store_start_met :
    (up.setQueue [erasing, loading]).nextOp = some loading ∧ (up.setQueue [erasing]).nextOp = some erasing ∧
    (up.setQueue [erasing]).psc.engine = .idle ∧ (up.setQueue [erasing]).psc.queue.length ≠ 0 ∧
    (up.setQueue [erasing, loading]).eligible loading = true ∧ (up.setQueue [erasing, loading]).eligible erasing = false ∧
    ((guarded true true).slot 31).isLocked = true ∧ ((guarded false false).slot 31).isProtected = false := by
  decide +kernel

theorem test_erase_program_met :
    (engaged (.erasing saving)).live = true ∧ (engaged (.erasing saving)).psc.engine = .erasing saving ∧
    (engaged (.programming saving [0])).psc.engine = .programming saving (0 :: []) ∧
    saving.op.kind = .save 0 31 (Vector.replicate 8 0x41#8) ∧
    saving.info = some ⟨Vector.replicate 8 0x41#8, 1#16, 12#16⟩ ∧ imagePages (List.replicate 256 0#8) = [0] ∧
    imagePages (List.replicate 257 0#8) = [1, 0] ∧ (4095 < 4096 ∧ (0xFE#8 : Byte) ≠ 0xFF#8) := by decide +kernel

/-- An image of slot 31 with its marker. -/
def marked : Work := { saving with image := slotImage [write] (Vector.replicate 8 0x41#8) }

/-- Work of a setup save. -/
def setupSaving : Work := ⟨⟨.setupSave, some 9#8, 0⟩, [], none⟩

/-- Cells that would make up a header of the setup record with its marker, and one past the header. -/
def setupResidue : List (Nat × Byte) := [(0, 0xE2#8), (1, 0xD1#8), (2, 0x47#8), (3, 0x9B#8), (15, 0#8), (16, 1#8)]

/-- The operands of a failed erase: well formed, in a unit of each kind, at the ends of their ranges. -/
theorem test_erase_failed_met :
    WellFormed (.eraseComplete setupResidue) = true ∧ Memory.wf (engaged (.erasing setupSaving)).nv.mem ∧
    (engaged (.erasing setupSaving)).psc.engine = .erasing setupSaving ∧ setupSaving.op.unit = 32 ∧
    saving.op.unit = 31 ∧ (3, 0x6C#8) ∉ setupResidue ∧ (engaged (.programming marked [1, 0])).workLaw := by decide +kernel

/-- A setup save that fails in its erase leaves the header erased, so that the next start reads BLANK (R163, R180). -/
theorem test_setup_erase_fails :
    ∃ t : State, exec (.eraseComplete setupResidue)
        { engaged (.erasing setupSaving) with
          hpt := { up.hpt with outstanding := [⟨9#8, 0x60#8⟩], sending := some ⟨[], false⟩ } } = .next t ∧
      t.nv.mem = [(131088, 1#8)] ∧ readSetup t.nv.mem = (.blank, none) ∧ t.psc.engine = .idle ∧
      t.hpt.replies = [⟨9#8, 0xE0#8, [Status.storeFault.byte, 0#8], false⟩] := ⟨_, rfl, by decide +kernel⟩

/-- Cells that would make up a whole image do not leave the slot valid after a failed erase (R157). -/
theorem test_slot_erase_fails :
    let cells := (List.range 44).zip (slotImage [write] (Vector.replicate 8 0x41#8))
    imageAccepted (Memory.residue [] 31 cells) 31 = true ∧
    classifySlot (Memory.eraseFailed [] 31 cells) 31 = .invalid ∧
    Memory.eraseFailed [] 31 [(0, 0#8)] = [(31 * 4096, 0#8)] := by decide +kernel

/-- The first page of that save, programmed into an erased unit, reads as wanted; left at 0, it does not. -/
theorem test_page_met :
    Memory.readAll (Memory.programAll [] (31 * 4096) (imagePage saving.image 0)) (31 * 4096) 256 =
      imagePage saving.image 0 ∧
    Memory.readAll (Memory.programAll [] (31 * 4096) (List.replicate 256 0#8)) (31 * 4096) 256 ≠
      imagePage saving.image 0 := by
  constructor
  · have h := Memory.readAll_programAll_nil (31 * 4096) (imagePage saving.image 0) 0 256 (by decide +kernel)
    rw [Nat.add_zero] at h
    rw [h]
    decide +kernel
  · have h := Memory.readAll_programAll_nil (31 * 4096) (List.replicate 256 0#8) 0 256 (by decide +kernel)
    rw [Nat.add_zero] at h
    rw [h]
    decide +kernel

/-- An erase of slot 31 with its marker cleared. -/
def cleared : State :=
  { engaged (.erasing marked) with nv := { up.nv with mem := Memory.clearMarker [] 31 } }

theorem test_work_law_met :
    cleared.workLaw ∧ Memory.wf cleared.nv.mem ∧ (engaged (.programming marked [1, 0])).workLaw ∧
    (engaged (.programming marked [0])).workLaw ∧ (engaged (.readingUnderSuspend loading (.program marked [0]))).workLaw ∧
    (engaged (.fusing ⟨.lock 31, none, 0⟩ 31)).workLaw ∧ (engaged (.reading loading)).workLaw ∧ Memory.wf up.nv.mem ∧
    marked.op.unit = 31 := by
  refine ⟨?_, ?_, ?_, ?_, ?_, ?_, ?_, ?_, rfl⟩ <;> decide +kernel

/-- An array whose slot 0 holds an image of one record. -/
def filled : List Host.Cell := Memory.programAll [] 0 (slotImage [write] (Vector.replicate 8 0x41#8))

theorem test_load_met :
    loading.kind = .load 0 0 ∧ (engaged (.reading loading)).live = true ∧ loading.origin ≠ none ∧
    ((grouped .loading []).group 0).state = .loading ∧ classifySlot [] 0 = .blank ∧
    classifySlot [(0, 0#8)] 0 = .invalid ∧ classifySlot filled 0 = .valid ⟨Vector.replicate 8 0x41#8, 1#16, 12#16⟩ ∧
    imageRecords filled 0 ⟨Vector.replicate 8 0x41#8, 1#16, 12#16⟩ = some [write] ∧
    imageRecords filled 0 ⟨Vector.replicate 8 0x41#8, 2#16, 12#16⟩ = none ∧ [write].length ≤ up.gtb.free := by
  decide +kernel

/-- The record checks of a load: a count byte its form does not have, `attempts` past 1024, a step of no SCATTER, and unused
bytes that are not 0, which are not checked (R158, R202). -/
theorem test_record_checks :
    recordOf ⟨1#8, 15#8, 0#16, 0#8, 0#16, [1#32, 2#32]⟩ = none ∧
    recordOf ⟨4#8, 15#8, 0#16, 1#8, 1025#16, [1#32, 1#32]⟩ = none ∧
    recordOf ⟨3#8, 15#8, 0#16, 2#8, 0#16, [1#32]⟩ = none ∧
    recordOf ⟨1#8, 15#8, 0#16, 9#8, 9#16, [1#32]⟩ = some (.single 15 0#16 1#32) ∧
    Memory.readAll filled (0 * 4096 + 32) 12 = [⟨1#8, 0#8, 255#16, 0#8, 0#16, [255#32]⟩].flatMap recordWire ∧
    recordOf ⟨1#8, 0#8, 255#16, 0#8, 0#16, [255#32]⟩ = some write := by decide +kernel

theorem test_lock_and_suspension_met :
    (engaged (.fusing ⟨.lock 31, some 9#8, 0⟩ 31)).live = true ∧ up.nv.locks[(31 : Fin 32)] = false ∧
    (up.setQueue [loading]).nextLoad = some loading ∧ up.nextLoad = none ∧
    { up.psc with guard := true, suspending := true }.guard = true := by decide +kernel

theorem test_suspension_runs :
    ∃ t : State, exec .suspendEffect { engaged (.erasing saving) with
        psc := { (engaged (.erasing saving)).psc with suspending := true, queue := [loading] } } = .next t ∧
      t.psc.engine = .readingUnderSuspend loading (.erase saving) ∧ t.psc.queue = [] ∧ t.psc.suspending = false :=
  ⟨_, rfl, by decide +kernel⟩

/-- A part whose slot 0 is locked. -/
def lockedUp : State :=
  { up with nv := { up.nv with locks := up.nv.locks.set 0 true }
            psc := { up.psc with dir := up.psc.dir.set 0 ⟨.blank, true, true⟩ } }

theorem test_locked_met : lockedUp.lockLaw ∧ lockedUp.guardLaw ∧ lockedUp.nv.locks[(0 : Fin 32)] = true := by
  decide +kernel

theorem test_payload_met :
    ∀ r ∈ [write, .run 15 65535#16 [1#32, 2#32], .scatter 0 0#16 .down [1#32], .poll 0 0#16 3#32 1#32 1024#16 255#8,
      .wait 3 65535#16, .setpoint 3 0#32], r.inRange = true := by decide

/-! ## Start-up -/

theorem test_start_runs :
    (∃ t : State, exec .powerFail up = .next t ∧ t.live = false ∧ t.suc.fresh = true) ∧
    (∃ t : State, exec (.resetnRelease ⟨true, false⟩) { up with pins := { up.pins with resetn := false } } = .next t ∧
      t.suc.cause = .pin ∧ t.hpt.baud = .b3000000 ∧ t.suc.stage = .rebuild) :=
  ⟨⟨_, rfl, by decide⟩, ⟨_, rfl, by decide⟩⟩

theorem test_rebuild_met :
    State.reset.live = true ∧ State.reset.suc.stage = .rebuild ∧
    (∀ b ∈ Memory.readAll [] 0 32, b = 0xFF#8) ∧ (∃ b ∈ Memory.readAll filled 0 32, b ≠ 0xFF#8) ∧
    valAt (Memory.readAll filled 0 32) 0 = 0x6C2E93D5#32 ∧ (halfAt (Memory.readAll filled 0 32) 8).toNat = 12 ∧
    crc32 (Memory.readAll filled 32 12) = valAt (Memory.readAll filled 0 32) 12 := by decide +kernel

/-- The setup area after a SETUP.SAVE of a fresh part. -/
def setupCells : List Host.Cell := Memory.programAll [] 131072 (setupImage up)

theorem setupImage_length : (setupImage up).length = 618 := by
  have h : ∀ s : State, (setupBody s).length = 602 → (setupImage s).length = 618 := by
    intro s hs
    simp only [setupImage, List.length_append, hs]
    rfl
  exact h up (by decide +kernel)

theorem setupCells_header : Memory.readAll setupCells 131072 16 = (setupImage up).take 16 := by
  exact Memory.readAll_programAll_nil 131072 (setupImage up) 0 16 (by rw [setupImage_length]; omega)

theorem setupCells_body : Memory.readAll setupCells 131088 602 = setupBody up := by
  have h := Memory.readAll_programAll_nil 131072 (setupImage up) 16 602 (by rw [setupImage_length])
  refine h.trans ?_
  decide +kernel

theorem setupHeader_crc (n : Half) (c : Val) (b : List Byte) :
    valAt ((valBytes setupMarker ++ [1#8, 0#8] ++ halfBytes n ++ valBytes c ++ [0#8, 0#8, 0#8, 0#8] ++ b).take 16) 8 =
      c := valAt_valBytes c [0#8, 0#8, 0#8, 0#8]

/-- A setup record that SETUP.SAVE writes passes the checks of the read, and is applied. -/
theorem test_setup_met :
    readSetup [] = (.blank, none) ∧ readSetup [(131072, 0#8)] = (.invalid, none) ∧
    (valAt (Memory.readAll setupCells 131072 16) 0 = 0x9B47D1E2#32 ∧
      byteAt (Memory.readAll setupCells 131072 16) 4 = 1#8 ∧ halfAt (Memory.readAll setupCells 131072 16) 6 = 602#16 ∧
      crc32 (Memory.readAll setupCells 131088 602) = valAt (Memory.readAll setupCells 131072 16) 8) ∧
    ∃ x, setupOf (Memory.readAll setupCells 131088 602) = some x ∧ x.consistent = true := by
  refine ⟨by decide +kernel, by decide +kernel, ?_, ?_⟩
  · rw [setupCells_header, setupCells_body]
    refine ⟨by decide +kernel, by decide +kernel, by decide +kernel, ?_⟩
    exact (setupHeader_crc _ _ _).symm
  · rw [setupCells_body]
    have h : (match setupOf (setupBody up) with | none => false | some x => x.consistent) = true := by decide +kernel
    generalize setupOf (setupBody up) = o at h ⊢
    cases o with
    | none => exact absurd h (by decide)
    | some x => exact ⟨x, rfl, h⟩

/-- Two enabled targets with one lane and address, and an I2C address on an SPI lane: no setup. -/
theorem test_setup_consistent :
    (⟨List.replicate 4 (.i2c .khz400), [device, device], [], [], none⟩ : Setup).consistent = false ∧
    (⟨List.replicate 4 (.spi .mhz1 .mode0), [device], [], [], none⟩ : Setup).consistent = false ∧
    (⟨List.replicate 4 (.i2c .khz400), [device, { device with enabled := false }], [], [], none⟩ : Setup).consistent =
      true ∧ (List.replicate 4 (LaneSettings.i2c .khz400)).length = 4 := by decide

/-- The part before the read of the setup area. -/
def beforeSetup (m : List Host.Cell) : State :=
  { State.reset with suc := { State.reset.suc with stage := .setupRead }, nv := { State.reset.nv with mem := m } }

theorem test_setup_read_runs :
    ∃ t : State, exec .setupAreaRead (beforeSetup []) = .next t ∧ t.suc.phase = .running ∧ t.suc.setup = .blank ∧
      t.suc.report.result = some .none := ⟨_, rfl, by decide +kernel⟩

theorem test_start_load_met :
    ((looped .stopped .none).loop 0).cfg.autostart = true ∧ (up.loop 0).cfg.autostart = false ∧
    up.suc.designation = none ∧ up.suc.setup ≠ .applied ∧ (up.group 0).state = .empty ∧
    ({ up.suc with setup := .applied, designation := some ⟨31, .sync1, 255#8⟩, stage := .load } : Suc).stage = .load ∧
    (⟨.load 31 0, none, 0⟩ : StoreOp).origin = none := by decide +kernel

/-- A start whose internal load of slot 0 is being read. -/
def startLoading : State :=
  { grouped .loading [] with
    suc := { Suc.begun .power with setup := .applied, designation := some ⟨0, .sync0, 0#8⟩, stage := .load }
    psc := { up.psc with engine := .reading ⟨.load 0 0, none, 0⟩ } }

theorem test_internal_load_met :
    startLoading.live = true ∧ startLoading.suc.stage = .load ∧ startLoading.psc.engine = .reading ⟨.load 0 0, none, 0⟩ ∧
    startLoading.suc.designation = some ⟨0, .sync0, 0#8⟩ ∧ (startLoading.group 0).state = .loading ∧
    classifySlot startLoading.nv.mem 0 = .blank ∧
    ((startLoading.startLoaded .blank).suc.stage = .due .slotBlank ∧
      ((startLoading.startLoaded .blank).lastStep).suc.phase = .running) := by decide +kernel

theorem test_sequencer_reset_met :
    up.admits ask ∧ (engaged (.reading loading)).psc.engine.loading = some loading ∧ up.psc.engine.loading = none ∧
    loading.kind = .load 0 0 ∧ (engaged (.reading loading)).psc.queue.filter (fun op => !op.cancellable) = [] ∧
    (engaged (.erasing saving)).psc.engine = .erasing saving := by decide +kernel

end Sys2Proof.Tests
end

section
/-! SUPPORT. What the shared operations can do to the group table, the launch accounts and the sync and arm unit, said
once. `Whole` lets an update give a group any state, so it cannot carry a law that ties a group's state to its records;
here every change of a group is made under the condition the owner checked. -/

namespace Sys2Proof.Machine

/-- What the laws of groups, launches and arming speak of: the group table, the launch accounts, the sync and arm
unit. -/
def State.ledger (s : State) : Gtb × Table Account 8 × Sau := (s.gtb, s.lsq, s.sau)

theorem gtb_of_ledger {s t : State} (h : t.ledger = s.ledger) : t.gtb = s.gtb := congrArg Prod.fst h

/-- A fold of steps that leave the ledger as it is leaves it as it is. -/
theorem ledger_foldl {α : Type} {f : State → α → State} (h : ∀ s a, (f s a).ledger = s.ledger) (l : List α)
    (s : State) : (l.foldl f s).ledger = s.ledger :=
  foldl_keeps (P := fun t => t.ledger = s.ledger) (fun t a ht => (h t a).trans ht) l s rfl

theorem ledger_drawn (s : State) : s.drawn.ledger = s.ledger := rfl

theorem ledger_answer (s : State) (t : Byte) (st : Status) (r : List Byte) : (s.answer t st r).ledger = s.ledger := rfl

theorem ledger_setLoop (s : State) (n : Fin 4) (e : LoopEntry) : (s.setLoop n e).ledger = s.ledger := rfl

/-! ### The loops leave the ledger as it is -/

theorem ledger_dropQueued (s : State) (p : Job → Bool) : (s.dropQueued p).ledger = s.ledger := by
  unfold State.dropQueued
  exact ledger_foldl (fun _ _ => by rfl) _ s

theorem ledger_leaveRun (s : State) (n : Fin 4) (st : LoopState) : (s.leaveRun n st).ledger = s.ledger := by
  simp only [State.leaveRun, State.withdrawLoop, ledger_setLoop, ledger_dropQueued]

theorem ledger_stopLoop (s : State) (n : Fin 4) : (s.stopLoop n).ledger = s.ledger :=
  (ledger_setLoop ..).trans (ledger_leaveRun s n .stopped)

theorem ledger_loopReset (s : State) (n : Fin 4) : (s.loopReset n).ledger = s.ledger :=
  (ledger_setLoop ..).trans (ledger_stopLoop s n)

theorem ledger_startLoop (s : State) (n : Fin 4) : (s.startLoop n).ledger = s.ledger := by
  simp only [State.startLoop]
  split <;> rfl

theorem ledger_loopsEdge (s : State) (line : Line) : (s.loopsEdge line).ledger = s.ledger := by
  refine ledger_foldl (fun t n => ?_) _ s
  simp only [State.loopEdge]
  split_ifs <;> rfl

theorem ledger_appendAdjustment (s : State) (n : Fin 4) (v : Val) : (s.appendAdjustment n v).ledger = s.ledger := by
  simp only [State.appendAdjustment]
  split <;> rfl

theorem ledger_adjust (s : State) (n : Fin 4) (e : Int) : (s.adjust n e).ledger = s.ledger := by
  simp only [State.adjust]
  split_ifs
  · rfl
  · rfl
  · exact ledger_appendAdjustment s n _

theorem ledger_decide (s : State) (n : Fin 4) (e : Int) : (s.decide n e).ledger = s.ledger := by
  have resting (t : State) (p : Prop) [Decidable p] (st : LoopState) :
      (if p then t.loopRests n st e else t.adjust n e).ledger = t.ledger := by
    split_ifs
    · rfl
    · exact ledger_adjust t n e
  simp only [State.decide]
  split
  · exact resting s _ _
  · exact resting s _ _
  · split_ifs
    · rfl
    · exact ledger_adjust _ n e
  · rfl
  · rfl

theorem ledger_loopJobEnd (s : State) (n : Fin 4) (k : LoopJobKind) (t : Fin 16) (reg : Half) (e : LoopEnd) :
    (s.loopJobEnd n k t reg e).ledger = s.ledger := by
  simp only [State.loopJobEnd]
  split_ifs
  · rfl
  · cases e with
    | failed r => exact ledger_leaveRun _ n .faulted
    | skipped => exact ledger_leaveRun _ n .faulted
    | dropped => rfl
    | success v =>
      simp only [State.cycleJobEnd]
      split_ifs
      · exact ledger_decide _ n _
      · rfl

theorem ledger_handOn (s : State) (t : Fin 16) (w : List (Half × Val)) : (s.handOn t w).ledger = s.ledger := by
  refine ledger_foldl (fun u n => ?_) _ s
  simp only [State.adopt]
  split
  · rfl
  · split_ifs <;> rfl

theorem ledger_cancelLoops (s : State) : s.cancelLoops.ledger = s.ledger := by
  unfold State.cancelLoops
  exact ledger_foldl (fun _ _ => by rfl) _ s

theorem ledger_abortLanes (s : State) (g : Fin 8) : (s.abortLanes g).ledger = s.ledger := by
  unfold State.abortLanes
  exact (ledger_foldl (fun _ _ => by rfl) _ _).trans (ledger_dropQueued ..)

theorem ledger_reportFault (s : State) (f : Flight) (r : FaultReason) : (s.reportFault f r).ledger = s.ledger := by
  simp only [State.reportFault, State.faultTarget]
  split
  · rfl
  · split_ifs <;> rfl

/-! ### What a job's end can do -/

/-- A property of the ledger kept by every end of a record, and by the flags of an account. -/
structure RecordSide (P : State → Prop) : Prop where
  frame : ∀ s t : State, t.ledger = s.ledger → P s → P t
  ended : ∀ (s : State) g i e, P s → P (s.recordEnd g i e)
  flags : ∀ (s : State) g a, a.pending = (s.account g).pending → P s → P (s.setAccount g a)

namespace RecordSide

variable {P : State → Prop} (k : RecordSide P) {s : State} (hs : P s)
include k hs

/-- The property is kept where the ledger stays as it is. -/
theorem untouched {t : State} (h : t.ledger = s.ledger) : P t := k.frame s t h hs

theorem recordsWithdrawn (g n) : P (s.recordsWithdrawn g n) := by
  induction n generalizing s with
  | zero => exact hs
  | succ n ih => exact ih (k.ended s g 0 .withdrawn hs)

theorem loopJobEnd (n kd t reg e) : P (s.loopJobEnd n kd t reg e) := k.untouched hs (ledger_loopJobEnd ..)

theorem dispatchTo (l j t) : P (s.dispatchTo l j t) := by
  simp only [State.dispatchTo]
  split_ifs
  · unfold State.turnedAway
    split
    · exact k.untouched (k.ended s _ _ _ hs) (by rfl)
    · exact k.ended s _ _ _ hs
    · exact k.loopJobEnd hs _ _ _ _ _
    · exact k.untouched hs (by rfl)
  · unfold State.skipped
    split
    · exact k.ended s _ _ _ hs
    · exact k.loopJobEnd hs _ _ _ _ _
    · exact k.untouched hs (by rfl)
  · exact k.untouched hs (by rfl)

theorem dispatch (l j) : P (s.dispatch l j) := by
  unfold State.dispatch
  split
  · exact k.untouched hs (by rfl)
  · exact k.ended _ _ _ _ (k.untouched hs (by rfl))
  · exact k.dispatchTo hs l _ _
  · exact k.dispatchTo hs l _ _
  · exact k.dispatchTo hs l _ _
  · exact k.dispatchTo hs l _ _
  · split_ifs
    · exact k.loopJobEnd hs _ _ _ _ _
    · exact k.dispatchTo hs l _ _
  · exact k.dispatchTo hs l _ _

theorem takeHead (l) : P (s.takeHead l) := by
  unfold State.takeHead
  split
  · exact k.dispatch (k.untouched hs (by rfl)) l _
  · exact hs
  · exact hs

theorem settleLanes : P s.settleLanes := by
  unfold State.settleLanes
  generalize s.queuedCount _ = n
  induction n generalizing s with
  | zero => exact hs
  | succ n ih =>
    simp only [State.takeHeads]
    split
    · exact hs
    · exact ih (k.takeHead (k.untouched hs (by rfl)) _)

theorem takePast (g l n) : P (State.takePast g l n s) := by
  induction n generalizing s with
  | zero => exact hs
  | succ n ih =>
    simp only [State.takePast]
    split_ifs
    · exact hs
    · exact ih (k.takeHead hs l)

theorem handOn (t w) : P (s.handOn t w) := k.untouched hs (ledger_handOn ..)

theorem recordOver (l g i r m e) : P (s.recordOver l g i r m e) := by
  have h := k.ended s g i e hs
  simp only [State.recordOver, State.handOver]
  split
  · exact h
  · split_ifs
    · exact k.handOn (k.takePast (k.untouched h (by rfl)) _ _ _) _ _
    · exact k.handOn (k.untouched h (by rfl)) _ _
    · exact k.handOn h _ _

theorem writeDone (l f) : P (s.writeDone l f) := by
  simp only [State.writeDone]
  split
  · exact k.recordOver hs _ _ _ _ _ _
  · exact k.loopJobEnd hs _ _ _ _ _
  · exact hs

theorem jobFailed (l f r) : P (s.jobFailed l f r) := by
  unfold State.jobFailed
  split
  · exact k.recordOver hs _ _ _ _ _ _
  · exact k.ended s _ _ _ hs
  · exact k.loopJobEnd hs _ _ _ _ _
  · cases r <;> exact k.untouched hs (by rfl)

theorem attemptFailed (l f r) : P (s.attemptFailed l f r) := by
  simp only [State.attemptFailed]
  split_ifs
  · exact k.untouched hs (by rfl)
  · have h : P (s.setFlight l none) := k.untouched hs (by rfl)
    exact k.jobFailed (k.untouched h (ledger_reportFault ..)) l f r

theorem itemDone (l f) : P (s.itemDone l f) := by
  have h : P (s.setFlight l none) := k.untouched hs (by rfl)
  unfold State.itemDone
  split
  · split_ifs
    · exact k.writeDone h l f
    · exact k.recordOver h _ _ _ _ _ _
    · exact k.untouched hs (by rfl)
  all_goals exact k.writeDone h l f

theorem readDone (l f v) : P (s.readDone l f v) := by
  have h : P (s.setFlight l none) := k.untouched hs (by rfl)
  unfold State.readDone State.pollRead
  split
  · split_ifs
    · exact k.ended _ _ _ _ h
    · exact k.ended _ _ _ _ h
    · exact k.untouched hs (by rfl)
    · exact k.ended _ _ _ _ h
  · exact hs
  · exact k.loopJobEnd h _ _ _ _ _
  · exact k.untouched hs (by rfl)

theorem acked (l f d) : P (s.acked l f d) := by
  simp only [State.acked]
  split
  · split_ifs
    · exact k.untouched hs (by rfl)
    · exact k.itemDone hs l f
  · split_ifs
    · exact k.itemDone hs l f
    · exact k.attemptFailed hs l f _
  · exact k.readDone hs l f _
  · exact hs

/-! ### Events of the lanes, cuts and aborts -/

theorem transactionEnd (l e) : P (Sys2Proof.Machine.transactionEnd l e s) := by
  have h (w) : P (s.onBus l w) := k.untouched hs (by rfl)
  unfold Sys2Proof.Machine.transactionEnd
  split
  · exact hs
  · split_ifs
    · exact hs
    · cases e with
      | ack d =>
        simp only
        split_ifs
        · exact k.settleLanes (k.acked (h _) l _ _)
        · exact hs
      | nak n =>
        simp only
        split_ifs
        · exact k.settleLanes (k.attemptFailed (h _) l _ _)
        · exact hs

theorem clockHoldTimeout (l) : P (Sys2Proof.Machine.clockHoldTimeout l s) := by
  unfold Sys2Proof.Machine.clockHoldTimeout
  split
  · exact hs
  · split_ifs
    · exact k.settleLanes (k.attemptFailed (k.untouched hs (by rfl)) l _ _)
    · exact hs

theorem pollGapExpiry (l) : P (Sys2Proof.Machine.pollGapExpiry l s) := by
  unfold Sys2Proof.Machine.pollGapExpiry
  split
  · exact hs
  · split_ifs
    · exact k.untouched hs (by rfl)
    · exact hs

theorem waitExpiry (l) : P (Sys2Proof.Machine.waitExpiry l s) := by
  unfold Sys2Proof.Machine.waitExpiry
  split
  · exact k.settleLanes (k.ended _ _ _ _ (k.untouched hs (by rfl)))
  · exact hs
  · exact hs

theorem cutAccounts : P s.cutAccounts :=
  foldl_keeps (P := P) (fun s g h => by
    split_ifs
    · exact k.flags s g _ rfl h
    · exact h) _ _ hs

theorem cutJob (j) : P (s.cutJob j) := by
  cases j with
  | record g i r => exact k.ended s g i _ hs
  | loop n kd t reg v => exact hs
  | read tag t reg => exact k.untouched hs (by rfl)

theorem cutFlight (f) : P (s.cutFlight f) := by
  unfold State.cutFlight
  split
  · exact k.handOn (k.ended s _ _ _ hs) _ _
  all_goals exact k.cutJob hs _

theorem cutNext (n l) : P (State.cutNext n s l) := by
  simp only [State.cutNext]
  split
  · exact k.cutFlight (k.untouched hs (by rfl)) _
  · exact k.cutJob (k.untouched hs (by rfl)) _
  · exact hs

theorem cutLanes : P s.cutLanes := by
  have h := foldl_keeps (P := P) (fun _ l h => k.cutNext h s.fresh l) s.cutOrder _ (k.cutAccounts hs)
  exact k.untouched h ((ledger_drawn _).trans (ledger_cancelLoops _))

theorem abort (tag g) : P (s.abort tag g) := by
  have h := k.flags s g { s.account g with abortTaken := true } rfl hs
  exact k.recordsWithdrawn (k.untouched h ((ledger_answer ..).trans (ledger_abortLanes _ g))) g _

end RecordSide

end Sys2Proof.Machine
end

section
/-! SUPPORT. Every way a command can change the group table, the launch accounts or the sync and arm unit, said once
(`GroupSide.exec`). -/

namespace Sys2Proof.Machine

/-- A property of the ledger kept by every change a command makes to it, each under the condition its owner has
checked. -/
structure GroupSide (P : State → Prop) : Prop extends RecordSide P where
  marks : ∀ (s : State) g (e : GroupEntry), e.state = (s.group g).state →
    e.records.length = (s.group g).records.length → P s → P (s.setGroup g e)
  lines : ∀ (s : State) (x : Sau), x.arm = s.sau.arm → P s → P { s with sau := x }
  edge : ∀ (s : State) l, P s → P (s.edgeMade l)
  applied : ∀ (s : State) g, (s.group g).state = .ready → P s → P (s.launch none g)
  opened : ∀ (s : State) g, (s.group g).state = .empty → P s → P (s.setGroup g { s.group g with state := .opened })
  added : ∀ (s : State) g x, (s.group g).state = .opened → s.gtb.free ≠ 0 → P s →
    P (s.setRecords g ((s.group g).records ++ [x]))
  closed : ∀ (s : State) g, (s.group g).state = .opened → (s.group g).records ≠ [] → P s →
    P (s.setGroup g { s.group g with state := .ready })
  emptied : ∀ (s : State) g, (s.group g).state = .opened ∨ (s.group g).state = .ready ∨ (s.group g).state = .loading →
    P s → P (s.emptyGroup g)
  reserved : ∀ (s : State) g, (s.group g).state = .empty → P s → P (s.setGroup g { s.group g with state := .loading })
  filled : ∀ (s : State) g l, (s.group g).state = .loading → l.length ≤ s.gtb.free → P s →
    P ((s.setRecords g l).setGroup g { (s.setRecords g l).group g with state := .ready })
  armed : ∀ (s : State) g l x m, (s.group g).state = .ready → P s → P (s.armGroup g l x m)
  disarmed : ∀ (s : State) g, (s.armEntry g).isSome = true → P s →
    P ((s.setGroup g
      { s.group g with state := if (s.group g).state = .armed then .ready else (s.group g).state }).setArm
      (s.sau.arm.filter fun a => a.group != g))
  cleared : ∀ s : State, P s → P s.resetGroups
  blocks : ∀ (s : State) c r, P s → P (s.blocksReset c r)

namespace GroupSide

variable {P : State → Prop} (k : GroupSide P) {s : State} (hs : P s)
include k hs

/-- The property is kept where the ledger stays as it is. -/
theorem untouched {t : State} (h : t.ledger = s.ledger) : P t := k.frame s t h hs

/-! ## The store -/

theorem release (g) : P (s.release g) := by
  unfold State.release
  split_ifs with h
  · exact k.emptied s g (.inr (.inr h)) hs
  · exact hs

theorem unpin (g) : P (s.unpin g) := k.marks s g _ rfl rfl hs

theorem reserve (g) : P (s.reserve g) := by
  unfold State.reserve
  split_ifs with h
  · exact k.reserved s g h hs
  · exact hs

theorem replyTo (op st r) : P (s.replyTo op st r) := by
  unfold State.replyTo
  split
  · exact hs
  · exact k.untouched hs (by rfl)

theorem setOpSlot (op x) : P (s.setOpSlot op x) := by
  unfold State.setOpSlot
  split
  all_goals exact k.untouched hs (by rfl)

theorem startErase (w) : P (s.startErase w) := by
  have h : P (s.setMem (Memory.clearMarker s.nv.mem w.op.unit)) := k.untouched hs (by rfl)
  exact k.untouched (k.setOpSlot h w.op .busy) (by rfl)

theorem startOp (op) : P (s.startOp op) := by
  unfold State.startOp
  split
  · exact k.untouched hs (by rfl)
  · split
    · exact k.replyTo (k.unpin hs _) _ _ _
    · exact k.startErase (k.unpin hs _) _
  · split
    · exact k.replyTo hs _ _ _
    · exact k.startErase hs _
  · exact k.startErase hs _
  · split_ifs
    · exact k.replyTo hs _ _ _
    · exact k.untouched hs (by rfl)

theorem choose : P s.choose := by
  unfold State.choose
  generalize s.psc.queue.length = n
  induction n generalizing s with
  | zero => exact hs
  | succ n ih =>
    simp only [State.chooseFrom]
    split
    · exact ih (k.startOp (k.untouched hs (by rfl)) _)
    · exact hs

theorem accepted (x o) : P (s.accept x o) := by
  unfold State.accept State.judge
  extract_lets op
  have h : P { s with psc := { s.psc with queue := s.psc.queue ++ [op], accepted := s.psc.accepted + 1 } } :=
    k.untouched hs (by rfl)
  split
  · split_ifs
    · exact k.untouched (k.choose h) (by rfl)
    · exact k.choose h
  · exact k.choose h

theorem chooseUnder (x) : P (s.chooseUnder x) := by
  unfold State.chooseUnder
  split
  all_goals exact k.untouched hs (by rfl)

theorem engineFree : P s.engineFree := k.choose (k.untouched hs (by rfl))

theorem storeFault (w b) : P (s.storeFault w b) := k.engineFree (k.replyTo (k.setOpSlot hs _ _) _ _ _)

theorem nextPages (w l) : P (s.nextPages w l) := by
  unfold State.nextPages
  split_ifs
  · exact k.chooseUnder (k.untouched hs (by rfl)) _
  · exact k.untouched hs (by rfl)

theorem saveDone (w) : P (s.saveDone w) := by
  unfold State.saveDone
  split
  · exact k.engineFree (k.replyTo (k.untouched hs (by rfl)) _ _ _)
  · exact k.engineFree (k.replyTo hs _ _ _)

theorem eraseComplete (l) : P (Sys2Proof.Machine.eraseComplete l s) := by
  have h (m) : P (s.setMem m) := k.untouched hs (by rfl)
  unfold Sys2Proof.Machine.eraseComplete
  split
  · rename_i w _
    simp only
    split_ifs
    · exact k.storeFault (h _) _ _
    · have hm := h (Memory.residue (Memory.eraseUnit s.nv.mem w.op.unit) w.op.unit l)
      split
      · exact k.engineFree (k.replyTo (k.untouched hm (by rfl)) _ _ _)
      · exact k.nextPages hm _ _
  · exact hs

theorem pageProgramComplete (l) : P (Sys2Proof.Machine.pageProgramComplete l s) := by
  have h (m) : P (s.setMem m) := k.untouched hs (by rfl)
  unfold Sys2Proof.Machine.pageProgramComplete
  split
  · simp only
    split_ifs
    · exact k.storeFault (h _) _ _
    · exact k.saveDone (h _) _
    · exact k.nextPages (h _) _ _
  · exact hs

theorem fuseProgramComplete (b) : P (Sys2Proof.Machine.fuseProgramComplete b s) := by
  unfold Sys2Proof.Machine.fuseProgramComplete
  split
  · simp only
    split_ifs
    · exact k.engineFree (k.replyTo (k.untouched hs (by rfl)) _ _ _)
    · exact k.engineFree (k.replyTo (k.untouched hs (by rfl)) _ _ _)
  · exact hs

theorem suspendEffect : P (Sys2Proof.Machine.suspendEffect s) := by
  unfold Sys2Proof.Machine.suspendEffect
  split
  · split_ifs
    · exact hs
    · exact k.chooseUnder (k.untouched hs (by rfl)) _
    · exact k.untouched hs (by rfl)
  · exact hs

theorem resumeGuardExpiry : P (Sys2Proof.Machine.resumeGuardExpiry s) := by
  unfold Sys2Proof.Machine.resumeGuardExpiry State.judge
  split
  · split
    · split_ifs <;> exact k.untouched hs (by rfl)
    · exact k.untouched hs (by rfl)
  · exact hs

theorem cancelOp (op) : P (s.cancelOp op) := by
  unfold State.cancelOp
  split
  · exact k.replyTo (k.unpin hs _) _ _ _
  · exact k.replyTo (k.release hs _) _ _ _
  all_goals exact hs

theorem cancelStore : P s.cancelStore := by
  have h : P (s.setQueue (s.psc.queue.filter fun op => !op.cancellable)) := k.untouched hs (by rfl)
  have hc := foldl_keeps (P := P) (fun _ op h => k.cancelOp h op) s.psc.cancelled _ h
  unfold State.cancelStore State.stopLoad
  refine k.choose ?_
  split
  · exact k.untouched hc (by rfl)
  · exact k.untouched hc (by rfl)
  · exact hc

/-! ## Loads and the start sequence -/

theorem loadEnd (op slot g) : P (s.loadEnd op slot g) := by
  have h : P (s.setSlotState slot (s.loadResult slot).slotState) := k.untouched hs (by rfl)
  unfold State.loadEnd
  refine k.replyTo ?_ _ _ _
  generalize he : s.loadResult slot = e at h ⊢
  unfold State.loadGroup
  split
  · split_ifs with hl
    · exact k.filled _ g _ hl (Whole.loadResult_filled (s := s) slot _ _ he) h
    · exact h
  all_goals exact k.release h g

theorem finishStart (r) : P (s.finishStart r) := k.untouched hs (by rfl)

theorem startLoaded (e) : P (s.startLoaded e) := by
  unfold State.startLoaded State.armStart
  split
  · split_ifs with h
    · exact k.untouched (k.armed s 0 _ _ _ h hs) (by rfl)
    · exact k.untouched hs (by rfl)
  all_goals exact k.untouched hs (by rfl)

theorem startStep (e) : P (s.startStep e) := by
  have h := k.startLoaded hs e
  unfold State.startStep State.lastStep
  split_ifs
  · exact h
  · split
    · exact k.finishStart h _
    all_goals exact h

theorem idled : P s.idled := by
  unfold State.idled
  split
  · split_ifs
    · exact k.untouched hs (by rfl)
    · exact hs
  all_goals exact hs

theorem loadOver (op) : P (s.loadOver op) := by
  unfold State.loadOver
  split
  · simp only
    split_ifs
    · exact k.startStep (k.loadEnd hs _ _ _) _
    · exact k.loadEnd hs _ _ _
  all_goals exact hs

theorem imageReadComplete : P (Sys2Proof.Machine.imageReadComplete s) := by
  unfold Sys2Proof.Machine.imageReadComplete
  split
  · exact k.engineFree (k.loadOver hs _)
  · exact k.chooseUnder (k.loadOver hs _) _
  · exact hs

theorem beginStart (c x) : P (s.beginStart c x) := by
  have h : P { s.abandonStore with pins := { s.abandonStore.pins with straps := x } } := k.untouched hs (by rfl)
  exact k.untouched (k.blocks _ (Suc.begun c) (baudOf x) h)
    (by simp only [State.beginStart, State.fuseRead, State.ledger])

theorem hold (b) : P (s.hold b) := k.blocks _ _ _ (k.untouched hs (by rfl))

theorem powerOn (x) : P (Sys2Proof.Machine.powerOn x s) := by
  unfold Sys2Proof.Machine.powerOn
  split
  · exact k.beginStart (k.untouched hs (by rfl)) _ x
  · exact k.hold (k.untouched hs (by rfl)) true

theorem resetnRelease (x) : P (Sys2Proof.Machine.resetnRelease x s) := by
  unfold Sys2Proof.Machine.resetnRelease
  split
  · exact hs
  · split
    · exact k.beginStart (k.untouched hs (by rfl)) _ x
    · exact k.untouched hs (by rfl)

theorem directoryRebuild : P (Sys2Proof.Machine.directoryRebuild s) := by
  unfold Sys2Proof.Machine.directoryRebuild
  split_ifs
  · exact k.untouched hs (by simp only [State.ledger])
  · exact hs

theorem applySetup (x) : P (s.applySetup x) := by
  exact k.untouched (k.lines s
    { s.sau with line0 := s.sau.line0.withSetup x.sync[0]?, line1 := s.sau.line1.withSetup x.sync[1]? } rfl hs)
    (by simp only [State.applySetup, State.ledger])

theorem autostart (n) : P (s.autostart n) := by
  unfold State.autostart
  split_ifs
  · split
    · exact k.untouched hs (by rfl)
    · exact k.untouched (k.untouched hs (ledger_startLoop s n)) (by rfl)
  · exact k.untouched hs (by rfl)

theorem startLoad : P s.startLoad := by
  unfold State.startLoad
  split
  · exact k.accepted (k.untouched (k.reserve hs 0) (by rfl)) _ _
  · exact k.finishStart hs _

theorem setupAreaRead : P (Sys2Proof.Machine.setupAreaRead s) := by
  unfold Sys2Proof.Machine.setupAreaRead
  split_ifs
  · generalize readSetup s.nv.mem = x
    obtain ⟨a, y⟩ := x
    have h : P (s.setSetup a) := k.untouched hs (by rfl)
    have h' : P (match y with | none => s.setSetup a | some x => (s.setSetup a).applySetup x) := by
      cases y with
      | none => exact h
      | some x => exact k.applySetup h x
    exact k.settleLanes (k.startLoad (foldl_keeps (P := P) (fun _ n h => k.autostart h n) _ _ h'))
  · exact hs

theorem transmitEnd (x) : P (Sys2Proof.Machine.transmitEnd x s) := by
  unfold Sys2Proof.Machine.transmitEnd
  split
  · exact hs
  · split_ifs
    · exact k.beginStart hs _ _
    · exact k.untouched hs (by simp [State.ledger])

/-! ## Edges -/

theorem setLine (l) (x : SyncLine) : P (s.setLine l x) := by
  cases l
  all_goals exact k.lines s _ rfl hs

theorem closeWindow (l) : P (s.closeWindow l) := by
  simp only [State.closeWindow]
  split
  · exact hs
  · exact foldl_keeps (P := P) (fun s g h => k.marks s g _ (by rfl) (by rfl) h) _ _ (k.setLine hs l _)

theorem filterSettled (l) : P (Sys2Proof.Machine.filterSettled l s) := by
  unfold Sys2Proof.Machine.filterSettled
  simp only
  split_ifs
  · exact k.settleLanes (k.edge _ l (k.setLine hs l _))
  · exact k.setLine hs l _
  · exact hs

/-! ## Group requests -/

theorem ownGroupOpen (tag g) : P (Sys2Proof.Machine.ownGroupOpen tag g s) := by
  unfold Sys2Proof.Machine.ownGroupOpen
  split
  · exact k.untouched hs (by rfl)
  · split_ifs with h
    · exact k.untouched hs (by rfl)
    · exact k.untouched (k.opened s _ (not_not.1 h) hs) (by rfl)

theorem ownGroupAdd (tag g r) : P (Sys2Proof.Machine.ownGroupAdd tag g r s) := by
  unfold Sys2Proof.Machine.ownGroupAdd
  split
  · exact k.untouched hs (by rfl)
  · split
    · exact k.untouched hs (by rfl)
    · rename_i h
      split
      · exact k.untouched hs (by rfl)
      · split
        · exact k.untouched hs (by rfl)
        · rename_i hf
          exact k.untouched (k.added s _ _ (not_not.1 h) hf hs) (by rfl)

theorem ownGroupClose (tag g) : P (Sys2Proof.Machine.ownGroupClose tag g s) := by
  unfold Sys2Proof.Machine.ownGroupClose
  split
  · exact k.untouched hs (by rfl)
  · simp only
    split_ifs with h hr
    · exact k.untouched hs (by rfl)
    · exact k.untouched hs (by rfl)
    · exact k.untouched (k.closed s _ (not_not.1 h) (by simpa using hr) hs) (by rfl)

theorem ownGroupDrop (tag g) : P (Sys2Proof.Machine.ownGroupDrop tag g s) := by
  unfold Sys2Proof.Machine.ownGroupDrop
  split
  · exact k.untouched hs (by rfl)
  · simp only
    split_ifs with h
    · exact k.untouched hs (by rfl)
    · exact k.untouched hs (by rfl)
    · refine k.untouched (k.emptied s _ ?_ hs) (by rfl)
      tauto

theorem ownGroupEdit (tag g i v) : P (Sys2Proof.Machine.ownGroupEdit tag g i v s) := by
  unfold Sys2Proof.Machine.ownGroupEdit
  split
  · exact k.untouched hs (by rfl)
  · rename_i g' _
    simp only
    split_ifs
    · exact k.untouched hs (by rfl)
    · split
      · exact k.untouched hs (by rfl)
      · split
        · exact k.untouched hs (by rfl)
        · rename_i x _
          have h := k.marks s g' { s.group g' with records := (s.group g').records.set i.toNat x } rfl
            (List.length_set ..) hs
          exact k.untouched h (by rfl)

theorem ownGroupArm (tag g l x m) : P (Sys2Proof.Machine.ownGroupArm tag g l x m s) := by
  unfold Sys2Proof.Machine.ownGroupArm
  split
  · exact k.untouched hs (by rfl)
  · split
    · split_ifs with h
      · exact k.untouched hs (by rfl)
      · exact k.untouched (k.armed s _ _ _ _ (not_not.1 h) hs) (by rfl)
    all_goals exact k.untouched hs (by rfl)

theorem ownGroupDisarm (tag g) : P (Sys2Proof.Machine.ownGroupDisarm tag g s) := by
  unfold Sys2Proof.Machine.ownGroupDisarm
  split
  · exact k.untouched hs (by rfl)
  · simp only
    split
    · exact k.untouched hs (by rfl)
    · rename_i h
      exact k.untouched (k.disarmed s _ (by simpa [Option.isSome_iff_ne_none] using h) hs) (by rfl)

theorem ownGroupApply (tag g) : P (Sys2Proof.Machine.ownGroupApply tag g s) := by
  unfold Sys2Proof.Machine.ownGroupApply
  split
  · exact k.untouched hs (by rfl)
  · split_ifs with h
    · exact k.untouched hs (by rfl)
    · exact k.settleLanes (k.untouched (k.applied s _ (not_not.1 h) hs) (ledger_answer ..))

theorem ownGroupAbort (tag g) : P (Sys2Proof.Machine.ownGroupAbort tag g s) := by
  unfold Sys2Proof.Machine.ownGroupAbort
  split
  · exact k.untouched hs (by rfl)
  · split_ifs
    · exact k.untouched hs (by rfl)
    · exact k.settleLanes (k.abort hs _ _)

/-! ## Requests of the other blocks -/

theorem ownGroupQuery (tag g) : P (Sys2Proof.Machine.ownGroupQuery tag g s) := by
  unfold Sys2Proof.Machine.ownGroupQuery
  split <;> exact k.untouched hs (by rfl)

theorem ownGroupRead (tag g f) : P (Sys2Proof.Machine.ownGroupRead tag g f s) := by
  unfold Sys2Proof.Machine.ownGroupRead
  split
  · exact k.untouched hs (by rfl)
  · simp only
    split_ifs <;> exact k.untouched hs (by rfl)

theorem ownTargetSet (tag t r) : P (Sys2Proof.Machine.ownTargetSet tag t r s) := by
  unfold Sys2Proof.Machine.ownTargetSet
  repeat' split
  all_goals exact k.untouched hs (by rfl)

theorem ownTargetQuery (tag t) : P (Sys2Proof.Machine.ownTargetQuery tag t s) := by
  unfold Sys2Proof.Machine.ownTargetQuery
  repeat' split
  all_goals exact k.untouched hs (by rfl)

theorem ownTargetClear (tag t) : P (Sys2Proof.Machine.ownTargetClear tag t s) := by
  unfold Sys2Proof.Machine.ownTargetClear
  repeat' split
  all_goals exact k.untouched hs (by rfl)

theorem ownLaneSet (tag n r) : P (Sys2Proof.Machine.ownLaneSet tag n r s) := by
  unfold Sys2Proof.Machine.ownLaneSet
  split
  · exact k.untouched hs (by rfl)
  · split
    · exact k.untouched hs (by rfl)
    · simp only
      split_ifs <;> exact k.untouched hs (by rfl)

theorem ownLaneQuery (tag n) : P (Sys2Proof.Machine.ownLaneQuery tag n s) := by
  unfold Sys2Proof.Machine.ownLaneQuery
  repeat' split
  all_goals exact k.untouched hs (by rfl)

theorem ownSyncQuery (tag l) : P (Sys2Proof.Machine.ownSyncQuery tag l s) := by
  unfold Sys2Proof.Machine.ownSyncQuery
  repeat' split
  all_goals exact k.untouched hs (by rfl)

theorem ownLoopSet (tag n r) : P (Sys2Proof.Machine.ownLoopSet tag n r s) := by
  unfold Sys2Proof.Machine.ownLoopSet
  repeat' split
  all_goals exact k.untouched hs (by rfl)

theorem ownLoopQuery (tag n) : P (Sys2Proof.Machine.ownLoopQuery tag n s) := by
  unfold Sys2Proof.Machine.ownLoopQuery
  repeat' split
  all_goals exact k.untouched hs (by rfl)

theorem ownSlotProtect (tag x) : P (Sys2Proof.Machine.ownSlotProtect tag x s) := by
  unfold Sys2Proof.Machine.ownSlotProtect
  repeat' split
  all_goals exact k.untouched hs (by rfl)

theorem ownSlotUnprotect (tag x) : P (Sys2Proof.Machine.ownSlotUnprotect tag x s) := by
  unfold Sys2Proof.Machine.ownSlotUnprotect
  repeat' split
  all_goals exact k.untouched hs (by rfl)

theorem ownSetupStart (tag d) : P (Sys2Proof.Machine.ownSetupStart tag d s) := by
  unfold Sys2Proof.Machine.ownSetupStart
  repeat' split
  all_goals exact k.untouched hs (by rfl)

theorem ownTargetRead (tag t r) : P (Sys2Proof.Machine.ownTargetRead tag t r s) := by
  unfold Sys2Proof.Machine.ownTargetRead
  split
  · exact k.untouched hs (by rfl)
  · simp only
    split_ifs
    · exact k.untouched hs (by rfl)
    · exact k.untouched hs (by rfl)
    · exact k.settleLanes (k.untouched hs (by rfl))

theorem ownSyncSet (tag l e w) : P (Sys2Proof.Machine.ownSyncSet tag l e w s) := by
  unfold Sys2Proof.Machine.ownSyncSet
  split
  · split_ifs
    · exact k.untouched (k.setLine hs _ _) (by rfl)
    · exact k.untouched hs (by rfl)
  all_goals exact k.untouched hs (by rfl)

theorem ownSyncPulse (tag l) : P (Sys2Proof.Machine.ownSyncPulse tag l s) := by
  unfold Sys2Proof.Machine.ownSyncPulse
  split
  · exact k.untouched hs (by rfl)
  · rename_i line _
    have h := k.edge s line hs
    generalize s.edgeMade line = t at h ⊢
    exact k.settleLanes (k.untouched h (by rfl))

theorem ownLoopStart (tag n) : P (Sys2Proof.Machine.ownLoopStart tag n s) := by
  unfold Sys2Proof.Machine.ownLoopStart
  split
  · exact k.untouched hs (by rfl)
  · split
    · exact k.untouched hs (by rfl)
    · exact k.settleLanes (k.untouched hs ((ledger_answer ..).trans (ledger_startLoop ..)))

theorem ownLoopStop (tag n) : P (Sys2Proof.Machine.ownLoopStop tag n s) := by
  unfold Sys2Proof.Machine.ownLoopStop
  split
  · exact k.untouched hs (by rfl)
  · split_ifs
    · exact k.untouched hs (by rfl)
    · exact k.untouched hs ((ledger_answer ..).trans (ledger_stopLoop ..))

theorem ownSlotSave (tag g x l) : P (Sys2Proof.Machine.ownSlotSave tag g x l s) := by
  unfold Sys2Proof.Machine.ownSlotSave
  split
  · split
    · exact k.untouched hs (by rfl)
    · simp only
      split_ifs
      · exact k.untouched hs (by rfl)
      · exact k.untouched hs (by rfl)
      · exact k.accepted (k.marks s _ _ (by rfl) (by rfl) hs) _ _
  all_goals exact k.untouched hs (by rfl)

theorem ownSlotLoad (tag x g) : P (Sys2Proof.Machine.ownSlotLoad tag x g s) := by
  unfold Sys2Proof.Machine.ownSlotLoad
  split
  · split_ifs
    · exact k.untouched hs (by rfl)
    · exact k.accepted (k.reserve hs _) _ _
  all_goals exact k.untouched hs (by rfl)

theorem ownSlotErase (tag x) : P (Sys2Proof.Machine.ownSlotErase tag x s) := by
  unfold Sys2Proof.Machine.ownSlotErase
  split
  · exact k.untouched hs (by rfl)
  · split
    · exact k.untouched hs (by rfl)
    · exact k.accepted hs _ _

theorem ownSlotLock (tag x) : P (Sys2Proof.Machine.ownSlotLock tag x s) := by
  unfold Sys2Proof.Machine.ownSlotLock
  split
  · exact k.untouched hs (by rfl)
  · split_ifs
    · exact k.untouched hs (by rfl)
    · exact k.accepted hs _ _

theorem ownPartResetSequencer (tag) : P (Sys2Proof.Machine.ownPartResetSequencer tag s) := by
  have h := k.cleared _ (k.cancelStore (k.cutLanes hs))
  unfold Sys2Proof.Machine.ownPartResetSequencer
  exact k.untouched h (ledger_answer ..)

theorem ownPartResetLanes (tag) : P (Sys2Proof.Machine.ownPartResetLanes tag s) :=
  k.untouched (k.cutLanes hs) (ledger_answer ..)

theorem ownPartResetLoops (tag) : P (Sys2Proof.Machine.ownPartResetLoops tag s) := by
  unfold Sys2Proof.Machine.ownPartResetLoops
  refine k.untouched hs ((ledger_answer ..).trans (ledger_foldl (fun t n => ?_) _ s))
  exact ledger_loopReset t n

/-! ## Frames -/

theorem request (h c chk) {own : State → State} (ho : ∀ t, P t → P (own t)) : P (s.request h c chk own) := by
  unfold State.request
  split_ifs
  · exact hs
  · split
    · exact k.untouched hs (by rfl)
    · exact ho _ (k.untouched hs (by rfl))

/-- A request whose owner leaves the ledger as it is keeps the property. -/
theorem requestUntouched (h c chk) {own : State → State} (ho : ∀ t : State, (own t).ledger = t.ledger) :
    P (s.request h c chk own) := k.request hs h c chk fun t ht => k.untouched ht (ho t)

theorem groupRequest (h c b) : P (Sys2Proof.Machine.groupRequest h c b s) := by
  unfold Sys2Proof.Machine.groupRequest
  split
  · exact k.request hs _ _ _ fun _ ht => k.ownGroupOpen ht _ _
  · exact k.request hs _ _ _ fun _ ht => k.ownGroupAdd ht _ _ _
  · exact k.request hs _ _ _ fun _ ht => k.ownGroupClose ht _ _
  · exact k.request hs _ _ _ fun _ ht => k.ownGroupDrop ht _ _
  · exact k.request hs _ _ _ fun _ ht => k.ownGroupEdit ht _ _ _ _
  · exact k.request hs _ _ _ fun _ ht => k.ownGroupQuery ht _ _
  · exact k.request hs _ _ _ fun _ ht => k.ownGroupRead ht _ _ _
  · exact k.request hs _ _ _ fun _ ht => k.ownGroupArm ht _ _ _ _ _
  · exact k.request hs _ _ _ fun _ ht => k.ownGroupDisarm ht _ _
  · exact k.request hs _ _ _ fun _ ht => k.ownGroupApply ht _ _
  · exact k.request hs _ _ _ fun _ ht => k.ownGroupAbort ht _ _
  · exact hs

theorem laneRequest (h c b) : P (Sys2Proof.Machine.laneRequest h c b s) := by
  unfold Sys2Proof.Machine.laneRequest
  split
  · exact k.request hs _ _ _ fun _ ht => k.ownTargetSet ht _ _ _
  · exact k.request hs _ _ _ fun _ ht => k.ownTargetQuery ht _ _
  · exact k.request hs _ _ _ fun _ ht => k.ownTargetClear ht _ _
  · exact k.request hs _ _ _ fun _ ht => k.ownTargetRead ht _ _ _
  · exact k.request hs _ _ _ fun _ ht => k.ownLaneSet ht _ _ _
  · exact k.request hs _ _ _ fun _ ht => k.ownLaneQuery ht _ _
  · exact k.request hs _ _ _ fun _ ht => k.ownSyncSet ht _ _ _ _
  · exact k.request hs _ _ _ fun _ ht => k.ownSyncPulse ht _ _
  · exact k.request hs _ _ _ fun _ ht => k.ownSyncQuery ht _ _
  · exact hs

theorem loopRequest (h c b) : P (Sys2Proof.Machine.loopRequest h c b s) := by
  unfold Sys2Proof.Machine.loopRequest
  split
  · exact k.request hs _ _ _ fun _ ht => k.ownLoopSet ht _ _ _
  · exact k.request hs _ _ _ fun _ ht => k.ownLoopStart ht _ _
  · exact k.request hs _ _ _ fun _ ht => k.ownLoopStop ht _ _
  · exact k.request hs _ _ _ fun _ ht => k.ownLoopQuery ht _ _
  · exact hs

theorem reqPartReset (h c) : P (Sys2Proof.Machine.reqPartReset h c s) := by
  unfold Sys2Proof.Machine.reqPartReset
  split_ifs
  · exact k.requestUntouched hs _ _ _ fun _ => by rfl
  · exact k.request hs _ _ _ fun _ ht => k.ownPartResetSequencer ht _
  · exact k.request hs _ _ _ fun _ ht => k.ownPartResetLanes ht _
  · exact k.request hs _ _ _ fun _ ht => k.ownPartResetLoops ht _
  · exact k.requestUntouched hs _ _ _ fun _ => by rfl

theorem storeRequest (h c b) : P (Sys2Proof.Machine.storeRequest h c b s) := by
  unfold Sys2Proof.Machine.storeRequest
  split
  · exact k.request hs _ _ _ fun _ ht => k.ownSlotSave ht _ _ _ _
  · exact k.request hs _ _ _ fun _ ht => k.ownSlotLoad ht _ _ _
  · exact k.request hs _ _ _ fun _ ht => k.ownSlotErase ht _ _
  · exact k.request hs _ _ _ fun _ ht => k.ownSlotProtect ht _ _
  · exact k.request hs _ _ _ fun _ ht => k.ownSlotUnprotect ht _ _
  · exact k.request hs _ _ _ fun _ ht => k.ownSlotLock ht _ _
  · exact k.requestUntouched hs _ _ _ fun _ => by rfl
  · exact k.requestUntouched hs _ _ _ fun _ => by rfl
  · exact k.request hs _ _ _ fun _ ht => k.accepted ht _ _
  · exact k.request hs _ _ _ fun _ ht => k.ownSetupStart ht _ _
  · exact k.requestUntouched hs _ _ _ fun _ => by rfl
  · exact k.requestUntouched hs _ _ _ fun _ => by rfl
  · exact k.requestUntouched hs _ _ _ fun _ => by rfl
  · exact k.reqPartReset hs _ _
  · exact hs

theorem frameTaken (h c b) : P (Sys2Proof.Machine.frameTaken h c b s) := by
  unfold Sys2Proof.Machine.frameTaken
  split
  · exact k.request hs _ _ _ fun _ ht => ht
  · split_ifs
    · exact k.groupRequest hs _ _ _
    · exact k.laneRequest hs _ _ _
    · exact k.loopRequest hs _ _ _
    · exact k.storeRequest hs _ _ _

theorem characterArrival (c) : P (Sys2Proof.Machine.characterArrival c s) := by
  unfold Sys2Proof.Machine.characterArrival Sys2Proof.Machine.assemble
  extract_lets _ t
  have ht : P t := k.untouched hs (by rfl)
  clear_value t
  split
  · exact ht
  · split_ifs
    · exact k.untouched ht (by rfl)
    · exact ht
  · split_ifs
    · exact k.untouched ht (by rfl)
    · exact k.untouched ht (by rfl)
    · exact k.untouched ht (by rfl)
    · exact k.frameTaken (k.untouched ht (by rfl)) _ _ _
  · exact ht

theorem gapExpired : P (Sys2Proof.Machine.gapExpired s) := by
  unfold Sys2Proof.Machine.gapExpired
  split
  · split
    · split <;> exact k.untouched hs (by rfl)
    all_goals exact k.untouched hs (by rfl)
  · exact hs

/-! ## Every command -/

theorem taking {f : State → State} (hf : ∀ t, P t → P (f t)) {t : State} (ht : s.taking f = .next t) : P t := by
  unfold State.taking at ht
  split_ifs at ht
  · cases ht
    exact k.untouched (hf s hs) (by rfl)
  · cases ht
    exact hs

/-- Every command keeps a property that every change to the ledger keeps. -/
theorem exec {c : Instr} {t : State} (ht : Sys2Proof.Machine.exec c s = .next t) : P t := by
  cases c with
  | groupOpen h g => exact k.taking hs (fun _ x => k.request x _ _ _ fun _ y => k.ownGroupOpen y _ _) ht
  | groupAdd h g r => exact k.taking hs (fun _ x => k.request x _ _ _ fun _ y => k.ownGroupAdd y _ _ _) ht
  | groupClose h g => exact k.taking hs (fun _ x => k.request x _ _ _ fun _ y => k.ownGroupClose y _ _) ht
  | groupDrop h g => exact k.taking hs (fun _ x => k.request x _ _ _ fun _ y => k.ownGroupDrop y _ _) ht
  | groupEdit h g i v => exact k.taking hs (fun _ x => k.request x _ _ _ fun _ y => k.ownGroupEdit y _ _ _ _) ht
  | groupQuery h g => exact k.taking hs (fun _ x => k.request x _ _ _ fun _ y => k.ownGroupQuery y _ _) ht
  | groupRead h g f => exact k.taking hs (fun _ x => k.request x _ _ _ fun _ y => k.ownGroupRead y _ _ _) ht
  | groupArm h g l x m => exact k.taking hs (fun _ x => k.request x _ _ _ fun _ y => k.ownGroupArm y _ _ _ _ _) ht
  | groupDisarm h g => exact k.taking hs (fun _ x => k.request x _ _ _ fun _ y => k.ownGroupDisarm y _ _) ht
  | groupApply h g => exact k.taking hs (fun _ x => k.request x _ _ _ fun _ y => k.ownGroupApply y _ _) ht
  | groupAbort h g => exact k.taking hs (fun _ x => k.request x _ _ _ fun _ y => k.ownGroupAbort y _ _) ht
  | targetSet h t c => exact k.taking hs (fun _ x => k.request x _ _ _ fun _ y => k.ownTargetSet y _ _ _) ht
  | targetQuery h t => exact k.taking hs (fun _ x => k.request x _ _ _ fun _ y => k.ownTargetQuery y _ _) ht
  | targetClear h t => exact k.taking hs (fun _ x => k.request x _ _ _ fun _ y => k.ownTargetClear y _ _) ht
  | targetRead h t r => exact k.taking hs (fun _ x => k.request x _ _ _ fun _ y => k.ownTargetRead y _ _ _) ht
  | laneSet h n c => exact k.taking hs (fun _ x => k.request x _ _ _ fun _ y => k.ownLaneSet y _ _ _) ht
  | laneQuery h n => exact k.taking hs (fun _ x => k.request x _ _ _ fun _ y => k.ownLaneQuery y _ _) ht
  | syncSet h l e w => exact k.taking hs (fun _ x => k.request x _ _ _ fun _ y => k.ownSyncSet y _ _ _ _) ht
  | syncPulse h l => exact k.taking hs (fun _ x => k.request x _ _ _ fun _ y => k.ownSyncPulse y _ _) ht
  | syncQuery h l => exact k.taking hs (fun _ x => k.request x _ _ _ fun _ y => k.ownSyncQuery y _ _) ht
  | loopSet h n c => exact k.taking hs (fun _ x => k.request x _ _ _ fun _ y => k.ownLoopSet y _ _ _) ht
  | loopStart h n => exact k.taking hs (fun _ x => k.request x _ _ _ fun _ y => k.ownLoopStart y _ _) ht
  | loopStop h n => exact k.taking hs (fun _ x => k.request x _ _ _ fun _ y => k.ownLoopStop y _ _) ht
  | loopQuery h n => exact k.taking hs (fun _ x => k.request x _ _ _ fun _ y => k.ownLoopQuery y _ _) ht
  | slotSave h g x l => exact k.taking hs (fun _ x => k.request x _ _ _ fun _ y => k.ownSlotSave y _ _ _ _) ht
  | slotLoad h x g => exact k.taking hs (fun _ x => k.request x _ _ _ fun _ y => k.ownSlotLoad y _ _ _) ht
  | slotErase h x => exact k.taking hs (fun _ x => k.request x _ _ _ fun _ y => k.ownSlotErase y _ _) ht
  | slotProtect h x => exact k.taking hs (fun _ x => k.request x _ _ _ fun _ y => k.ownSlotProtect y _ _) ht
  | slotUnprotect h x => exact k.taking hs (fun _ x => k.request x _ _ _ fun _ y => k.ownSlotUnprotect y _ _) ht
  | slotLock h x => exact k.taking hs (fun _ x => k.request x _ _ _ fun _ y => k.ownSlotLock y _ _) ht
  | slotFreeze h => exact k.taking hs (fun _ x => k.requestUntouched x _ _ _ fun _ => by rfl) ht
  | slotList h => exact k.taking hs (fun _ x => k.requestUntouched x _ _ _ fun _ => by rfl) ht
  | setupSave h => exact k.taking hs (fun _ x => k.request x _ _ _ fun _ y => k.accepted y _ _) ht
  | setupStart h d => exact k.taking hs (fun _ x => k.request x _ _ _ fun _ y => k.ownSetupStart y _ _) ht
  | setupQuery h => exact k.taking hs (fun _ x => k.requestUntouched x _ _ _ fun _ => by rfl) ht
  | partIdent h => exact k.taking hs (fun _ x => k.requestUntouched x _ _ _ fun _ => by rfl) ht
  | partStatus h => exact k.taking hs (fun _ x => k.requestUntouched x _ _ _ fun _ => by rfl) ht
  | partResetFull h => exact k.taking hs (fun _ x => k.requestUntouched x _ _ _ fun _ => by rfl) ht
  | partResetSequencer h => exact k.taking hs (fun _ x => k.request x _ _ _ fun _ y => k.ownPartResetSequencer y _) ht
  | partResetLanes h => exact k.taking hs (fun _ x => k.request x _ _ _ fun _ y => k.ownPartResetLanes y _) ht
  | partResetLoops h => exact k.taking hs (fun _ x => k.request x _ _ _ fun _ y => k.ownPartResetLoops y _) ht
  | uartFramingError => exact k.taking hs (fun _ x => k.untouched x (by rfl)) ht
  | gapTimerExpiry => exact k.taking hs (fun _ x => k.gapExpired x) ht
  | transmitEnd x => exact k.taking hs (fun _ y => k.transmitEnd y x) ht
  | powerOn x => cases ht; exact k.powerOn hs x
  | powerFail => cases ht; exact k.hold (k.untouched hs (by rfl)) true
  | resetnAssert => cases ht; exact k.hold (k.untouched hs (by rfl)) s.suc.fresh
  | resetnRelease x => cases ht; exact k.resetnRelease hs x
  | directoryRebuild => exact k.taking hs (fun _ x => k.directoryRebuild x) ht
  | setupAreaRead => exact k.taking hs (fun _ x => k.setupAreaRead x) ht
  | syncLevelChange l x =>
    exact k.taking (s := s.setPinLevel l x) (by cases l <;> exact k.untouched hs (by rfl))
      (fun _ y => k.setLine y l _) ht
  | syncFilterSettled l => exact k.taking hs (fun _ x => k.filterSettled x l) ht
  | windowExpiry l => exact k.taking hs (fun _ x => k.closeWindow x l) ht
  | transactionEnd l e => exact k.taking hs (fun _ x => k.transactionEnd x l e) ht
  | clockHoldTimeout l => exact k.taking hs (fun _ x => k.clockHoldTimeout x l) ht
  | pollGapExpiry l => exact k.taking hs (fun _ x => k.pollGapExpiry x l) ht
  | waitExpiry l => exact k.taking hs (fun _ x => k.waitExpiry x l) ht
  | eraseComplete l => exact k.taking hs (fun _ x => k.eraseComplete x l) ht
  | pageProgramComplete l => exact k.taking hs (fun _ x => k.pageProgramComplete x l) ht
  | imageReadComplete => exact k.taking hs (fun _ x => k.imageReadComplete x) ht
  | fuseProgramComplete b => exact k.taking hs (fun _ x => k.fuseProgramComplete x b) ht
  | suspendEffect => exact k.taking hs (fun _ x => k.suspendEffect x) ht
  | resumeGuardExpiry => exact k.taking hs (fun _ x => k.resumeGuardExpiry x) ht
  | characterArrival c => exact k.taking hs (fun _ x => k.characterArrival x c) ht

/-- Every step keeps it. -/
theorem step {t : State} (ht : Sys2Proof.Machine.step s = .next t) : P t := by
  unfold Sys2Proof.Machine.step at ht
  split at ht
  · cases ht
    exact k.idled hs
  · exact k.exec (s := s.withPending _) (k.untouched hs (by rfl)) ht

end GroupSide

end Sys2Proof.Machine
end

section
/-! SUPPORT. The law of EMPTY and LOADING groups and the pool law, kept by every step (R1, R4). -/

namespace Sys2Proof.Machine

/-! ## EMPTY and LOADING groups hold no records (R4) -/

/-- A group's entry keeps the law of EMPTY and LOADING groups: in either it holds no records (R4). -/
def GroupEntry.emptyKept (e : GroupEntry) : Prop := e.state = .empty ∨ e.state = .loading → e.records = []

theorem GroupEntry.emptyKept_of_state {e : GroupEntry} (h : e.state ≠ .empty) (h' : e.state ≠ .loading) : e.emptyKept :=
  fun hx => (hx.elim h h').elim

theorem GroupEntry.emptyKept_reset : GroupEntry.reset.emptyKept := fun _ => rfl

/-- The law is about the groups alone. -/
theorem emptyLaw_of_gtb {s t : State} (h : t.gtb = s.gtb) (hs : s.emptyLaw) : t.emptyLaw := by
  intro g
  simpa only [State.group, h] using hs g

/-- A group whose new entry keeps the law keeps it for the part. -/
theorem emptyLaw_setGroup {s : State} {g : Fin 8} {e : GroupEntry} (he : e.emptyKept) (hs : s.emptyLaw) :
    (s.setGroup g e).emptyLaw := by
  intro g'
  rw [State.group_setGroup]
  split_ifs
  · exact he
  · exact hs g'

/-- An entry that takes neither state keeps the law whatever records it holds. -/
theorem emptyLaw_setState {s : State} {g : Fin 8} {e : GroupEntry} (h : e.state ≠ .empty) (h' : e.state ≠ .loading)
    (hs : s.emptyLaw) : (s.setGroup g e).emptyLaw := emptyLaw_setGroup (GroupEntry.emptyKept_of_state h h') hs

/-- An entry that keeps its state and its number of records keeps the law. -/
theorem emptyLaw_mark {s : State} {g : Fin 8} {e : GroupEntry} (h : e.state = (s.group g).state)
    (hr : e.records.length = (s.group g).records.length) (hs : s.emptyLaw) : (s.setGroup g e).emptyLaw := by
  refine emptyLaw_setGroup (fun he => ?_) hs
  have h0 := hs g (h ▸ he)
  exact List.eq_nil_of_length_eq_zero (by rw [hr, h0, List.length_nil])

/-- A change of records is a change of the group's entry, but for the free count. -/
theorem group_setRecords (s : State) (g : Fin 8) (l : List Record) :
    (s.setRecords g l).group = (s.setGroup g { s.group g with records := l }).group := rfl

/-- A change of records followed by an entry for the same group comes to that entry. -/
theorem group_setGroup_setRecords (s : State) (g : Fin 8) (l : List Record) (e : GroupEntry) :
    ((s.setRecords g l).setGroup g e).group = (s.setGroup g e).group := by
  funext g'
  simp only [State.group_setGroup, group_setRecords]
  split_ifs <;> rfl

theorem emptyLaw_of_group {s t : State} (h : t.group = s.group) (hs : s.emptyLaw) : t.emptyLaw := fun g => by
  rw [h]
  exact hs g

/-- After a reset every group is EMPTY and holds no records (R27). -/
theorem emptyLaw_reset {s : State} (h : s.gtb = Gtb.reset) : s.emptyLaw := fun g => by
  have hg : s.group g = GroupEntry.reset := by simp [State.group, h, Gtb.reset]
  rw [hg]
  exact GroupEntry.emptyKept_reset

/-- The records of a launch join the lanes: no group changes. -/
theorem gtb_appendRecords (s : State) (g : Fin 8) (i : Nat) (l : List Record) :
    (s.appendRecords g i l).gtb = s.gtb := by
  induction l generalizing s i with
  | nil => rfl
  | cons r l ih => exact ih (s.appendJob (s.recordLane r) (.record g i r)) (i + 1)

/-- A launch leaves its group LAUNCHING (R79). -/
theorem emptyLaw_launch {s : State} (e : Option LaunchEdge) (g : Fin 8) (hs : s.emptyLaw) : (s.launch e g).emptyLaw :=
  emptyLaw_of_gtb (gtb_appendRecords ..)
    (emptyLaw_setState (e := (s.group g).launched e) (by simp [GroupEntry.launched]) (by simp [GroupEntry.launched]) hs)

/-- The end of a record leaves its group's state, or completes the launch to READY or ARMED (R84, R89). -/
theorem emptyLaw_recordEnd {s : State} (g : Fin 8) (i : Nat) (e : RecordEnd) (hs : s.emptyLaw) :
    (s.recordEnd g i e).emptyLaw := by
  have hc : (s.setGroup g ((s.group g).counted i e)).emptyLaw :=
    emptyLaw_mark (by cases e <;> rfl) (by cases e <;> rfl) hs
  simp only [State.recordEnd]
  split_ifs
  · exact hs
  · refine emptyLaw_of_gtb (t := State.complete _ g) rfl (emptyLaw_setState ?_ ?_ hc)
    all_goals simp only; split_ifs <;> simp
  · exact hc

theorem emptyLaw_overrun {s : State} (g : Fin 8) (line : Line) (n : Half) (hs : s.emptyLaw) :
    (s.overrun g line n).emptyLaw :=
  emptyLaw_of_gtb (State.notify_gtb ..)
    (emptyLaw_mark (g := g) (e := { s.group g with overrunSeen := true }) rfl rfl hs)

theorem emptyLaw_setLine {s : State} (line : Line) (x : SyncLine) (hs : s.emptyLaw) : (s.setLine line x).emptyLaw :=
  emptyLaw_of_gtb (State.setLine_gtb ..) hs

theorem emptyLaw_closeWindow {s : State} (line : Line) (hs : s.emptyLaw) : (s.closeWindow line).emptyLaw := by
  simp only [State.closeWindow]
  split
  · exact hs
  · exact foldl_keeps (P := State.emptyLaw)
      (fun t g h => emptyLaw_mark (g := g) (e := { t.group g with late := true }) rfl rfl h) _ _
      (emptyLaw_setLine line _ hs)

theorem emptyLaw_edgeWalked {s : State} (line : Line) (hs : s.emptyLaw) : (s.edgeWalked line).emptyLaw := by
  simp only [State.edgeWalked]
  exact emptyLaw_of_gtb (State.setArm_gtb ..)
    (foldl_keeps (P := State.emptyLaw) (fun _ g h => emptyLaw_overrun g line _ h) _ _ hs)

theorem emptyLaw_launchAll {s : State} (line : Line) (gs : List (Fin 8)) (hs : s.emptyLaw) :
    (s.launchAll line gs).emptyLaw :=
  foldl_keeps (P := State.emptyLaw) (fun _ g h => emptyLaw_launch _ g h) _ _ hs

theorem emptyLaw_openWindow {s : State} (line : Line) (gs : List (Fin 8)) (hs : s.emptyLaw) :
    (s.openWindow line gs).emptyLaw := by
  unfold State.openWindow
  split_ifs
  · exact hs
  · exact emptyLaw_setLine line _ hs

theorem emptyLaw_edgeBegun {s : State} (line : Line) (hs : s.emptyLaw) : (s.edgeBegun line).emptyLaw :=
  emptyLaw_closeWindow line (emptyLaw_setLine line _ hs)

theorem emptyLaw_loopsEdge {s : State} (line : Line) (hs : s.emptyLaw) : (s.loopsEdge line).emptyLaw :=
  emptyLaw_of_gtb (gtb_of_ledger (ledger_loopsEdge s line)) hs

/-- An edge marks groups, and launches those that are due (R61, R69 to R72). -/
theorem emptyLaw_edgeMade {s : State} (line : Line) (hs : s.emptyLaw) : (s.edgeMade line).emptyLaw := by
  have walked := emptyLaw_edgeWalked line (emptyLaw_edgeBegun line hs)
  have launched (gs gs' : List (Fin 8)) := emptyLaw_launchAll line gs'
    (emptyLaw_loopsEdge line (emptyLaw_launchAll line gs walked))
  simp only [State.edgeMade]
  exact emptyLaw_of_gtb (State.drawn_gtb _) (emptyLaw_openWindow line _ (launched _ _))

/-- The law of EMPTY and LOADING groups is kept by every change to the ledger (R4). -/
theorem groupSide_emptyLaw : GroupSide State.emptyLaw where
  frame _ _ h hs := emptyLaw_of_gtb (gtb_of_ledger h) hs
  ended _ g i e hs := emptyLaw_recordEnd g i e hs
  flags _ _ _ _ hs := hs
  marks _ _ _ h hr hs := emptyLaw_mark h hr hs
  lines _ _ _ hs := hs
  edge _ l hs := emptyLaw_edgeMade l hs
  applied _ g _ hs := emptyLaw_launch none g hs
  opened _ _ _ hs := emptyLaw_setState (by simp) (by simp) hs
  added s g x hg _ hs := emptyLaw_of_group (group_setRecords s g _)
    (emptyLaw_setState (by simp [hg]) (by simp [hg]) hs)
  closed _ _ _ _ hs := emptyLaw_setState (by simp) (by simp) hs
  emptied s g _ hs := emptyLaw_of_group (group_setGroup_setRecords s g [] _) (emptyLaw_setGroup (fun _ => by
    simp [GroupEntry.cleared, group_setRecords]) hs)
  reserved s g hg hs := emptyLaw_setGroup (fun _ => hs g (.inl hg)) hs
  filled s g l _ _ hs := emptyLaw_of_group (group_setGroup_setRecords s g l _)
    (emptyLaw_setState (by simp) (by simp) hs)
  armed _ _ _ _ _ _ hs := emptyLaw_of_group rfl (emptyLaw_setState (by simp) (by simp) hs)
  disarmed s g _ hs := by
    refine emptyLaw_of_group (s := s.setGroup g _) rfl (emptyLaw_setGroup ?_ hs)
    split_ifs
    · exact GroupEntry.emptyKept_of_state (by simp) (by simp)
    · exact hs g
  cleared s _ := emptyLaw_reset (s := s.resetGroups) rfl
  blocks s c r _ := emptyLaw_reset (s := s.blocksReset c r) rfl

/-! ## The pool law (R1) -/

theorem held_eq_sum (x : Gtb) : x.held = ∑ g : Fin 8, x.groups[g].records.length := (Fin.sum_univ_def _).symm

/-- Two sums that differ in one term differ by that term. -/
theorem sum_change {n : Nat} {f f' : Fin n → Nat} (i : Fin n) (h : ∀ j, j ≠ i → f' j = f j) :
    ∑ j, f' j + f i = ∑ j, f j + f' i := by
  have others : ∑ j ∈ Finset.univ.erase i, f' j = ∑ j ∈ Finset.univ.erase i, f j :=
    Finset.sum_congr rfl fun j hj => h j (Finset.ne_of_mem_erase hj)
  rw [← Finset.add_sum_erase _ f' (Finset.mem_univ i), ← Finset.add_sum_erase _ f (Finset.mem_univ i), others]
  omega

/-- A new entry for one group changes the records held by the difference of the two entries. -/
theorem held_set (x : Gtb) (g : Fin 8) (e : GroupEntry) (f : Nat) :
    Gtb.held ⟨x.groups.set g e, f⟩ + x.groups[g].records.length = x.held + e.records.length := by
  have h := sum_change (f := fun g' : Fin 8 => x.groups[g'].records.length)
    (f' := fun g' : Fin 8 => (x.groups.set g e)[g'].records.length) g fun g' hg => by
      have hne : g.val ≠ g'.val := fun h => hg (Fin.ext h.symm)
      simp [hne]
  rw [held_eq_sum, held_eq_sum]
  simpa using h

/-- A group's new entry with the same number of records keeps the pool law. -/
theorem poolLaw_setGroup {s : State} {g : Fin 8} {e : GroupEntry} (he : e.records = (s.group g).records)
    (hs : s.poolLaw) : (s.setGroup g e).poolLaw := by
  have h := held_set s.gtb g e s.gtb.free
  simp only [State.poolLaw, State.setGroup, State.group] at *
  rw [he] at h
  omega

/-- Records that a group gives up return to the free set, and those it takes leave it (R2). -/
theorem poolLaw_setRecords {s : State} {g : Fin 8} {l : List Record}
    (hl : l.length ≤ s.gtb.free + (s.group g).records.length) (hs : s.poolLaw) : (s.setRecords g l).poolLaw := by
  have h := held_set s.gtb g { s.group g with records := l } (s.gtb.free + (s.group g).records.length - l.length)
  simp only [State.poolLaw, State.setRecords, State.group] at *
  omega

/-- After a reset all 256 records are free (R27). -/
theorem poolLaw_reset {s : State} (h : s.gtb = Gtb.reset) : s.poolLaw := by
  simp only [State.poolLaw, h]
  decide

/-- Every elementary update keeps the pool law (R1, R2). -/
theorem whole_poolLaw : Whole State.poolLaw where
  group _ _ _ he hs := poolLaw_setGroup he hs
  account _ _ _ hs := hs
  target _ _ _ hs := hs
  lane _ _ _ hs := hs
  loop _ _ _ hs := hs
  sync _ _ hs := hs
  notice _ _ _ _ hs := hs
  reply _ _ _ _ hs := hs
  draw _ hs := hs
  store _ _ hs := hs
  startup _ _ hs := hs
  array _ _ _ hs := hs
  own _ _ _ hs := hs
  records _ _ _ hl hs := poolLaw_setRecords hl hs
  config _ _ _ _ _ hs := hs
  clear s _ := poolLaw_reset (s := s.resetGroups) rfl
  blocks s c r _ := poolLaw_reset (s := s.blocksReset c r) rfl
  refuse _ _ _ _ _ hs := hs
  accept _ _ _ _ _ hs := hs
  replyFull _ _ _ _ hs := hs
  port _ _ _ _ hs := hs
  head _ hs := hs
  placed _ hs := hs
  arbiter _ hs := hs

/-- A step keeps a property that every elementary update keeps. -/
theorem Whole.step {P : State → Prop} (k : Whole P) (queue : ∀ (s : State) q, P s → P (s.withPending q)) {s t : State}
    (hs : P s) (ht : Sys2Proof.Machine.step s = .next t) : P t := by
  unfold Sys2Proof.Machine.step at ht
  split at ht
  · cases ht
    exact k.idled hs
  · exact k.exec (queue s _ hs) ht

/-- Settles O25: the pool law by the elementary updates, the law of EMPTY and LOADING groups by the changes to the
ledger. -/
theorem poolLawKept : Obligations.PoolLawKept := fun _ _ ht =>
  ⟨fun hs => whole_poolLaw.step (fun _ _ h => h) hs ht, fun hs => groupSide_emptyLaw.step hs ht⟩

end Sys2Proof.Machine
end

section
/-! SUPPORT. Requests answered in their own step, and the statements about numbers out of range and about building,
editing and reading a group (R13 to R24). -/

namespace Sys2Proof.Machine

/-! ## A request that only answers -/

/-- A request whose owner only answers it leaves the rest of the part as it is (R194). -/
theorem taking_answered {s : State} {h : ReqHead} (ha : s.admits h) {code : Byte} {own : State → State} {st : Status}
    {r : List Byte} (ho : own (s.accepted h code) = (s.accepted h code).answer h.tag st r) :
    s.taking (fun s => s.request h code none own) = .next (s.replied h code st r) := by
  rw [taking_request ha, ho, answer_replied ha.1.2.2.2.2.1]

/-- The outcome of a request whose owner answers BAD_ARG whatever the state. -/
theorem taking_badArg {s : State} {h : ReqHead} (ha : s.admits h) {code : Byte} {own : State → State}
    (ho : ∀ t : State, own t = t.answer h.tag .badArg) :
    s.taking (fun s => s.request h code none own) = .next (s.replied h code .badArg []) :=
  taking_answered ha (ho _)

/-! ## Requests with a list that passes its length check (R201) -/

theorem exec_groupAdd {r : RawRecord} (hr : addLength r = none) (h : ReqHead) (g : Byte) (s : State) :
    exec (.groupAdd h g r) s = s.taking fun s => s.request h 0x11#8 none (ownGroupAdd h.tag g r) := by
  rw [← hr]; rfl

theorem exec_groupEdit {vs : List Val} (hv : editLength vs = none) (h : ReqHead) (g index : Byte) (s : State) :
    exec (.groupEdit h g index vs) s = s.taking fun s => s.request h 0x14#8 none (ownGroupEdit h.tag g index vs) := by
  rw [← hv]; rfl

theorem exec_loopSet {r : RawLoop} (hr : loopLength r = none) (h : ReqHead) (n : Byte) (s : State) :
    exec (.loopSet h n r) s = s.taking fun s => s.request h 0x40#8 none (ownLoopSet h.tag n r) := by
  rw [← hr]; rfl

/-! ## Numbers and codes out of range -/

theorem lineOf_eq_none {b : Byte} (h : 2 ≤ b.toNat) : lineOf b = none := by
  have h0 : b ≠ 0#8 := by rintro rfl; simp at h
  have h1 : b ≠ 1#8 := by rintro rfl; simp at h
  simp [lineOf, h0, h1]

theorem modeOf_eq_none {b : Byte} (h : 2 ≤ b.toNat) : modeOf b = none := by
  have h0 : b ≠ 0#8 := by rintro rfl; simp at h
  have h1 : b ≠ 1#8 := by rintro rfl; simp at h
  simp [modeOf, h0, h1]

theorem flagOf_eq_none {b : Byte} (h : 2 ≤ b.toNat) : flagOf b = none := by
  have h0 : b ≠ 0#8 := by rintro rfl; simp at h
  have h1 : b ≠ 1#8 := by rintro rfl; simp at h
  simp [flagOf, h0, h1]

theorem edgeOf_eq_none {b : Byte} (h : 3 ≤ b.toNat) : edgeOf b = none := by
  have h0 : b ≠ 0#8 := by rintro rfl; simp at h
  have h1 : b ≠ 1#8 := by rintro rfl; simp at h
  have h2 : b ≠ 2#8 := by rintro rfl; simp at h
  simp [edgeOf, h0, h1, h2]

theorem groupArm_badArg (tag g line skip mode : Byte) (t : State)
    (h : 8 ≤ g.toNat ∨ 2 ≤ line.toNat ∨ 2 ≤ mode.toNat) :
    ownGroupArm tag g line skip mode t = t.answer tag .badArg := by
  unfold ownGroupArm
  rcases h with h | h | h
  · rw [inRange_none h]
  · rw [lineOf_eq_none h]; split <;> rfl
  · rw [modeOf_eq_none h]
    split
    · rfl
    · cases lineOf line <;> rfl

theorem syncSet_badArg (tag line edge : Byte) (window : Half) (t : State)
    (h : 2 ≤ line.toNat ∨ 3 ≤ edge.toNat ∨ 6000 < window.toNat) :
    ownSyncSet tag line edge window t = t.answer tag .badArg := by
  unfold ownSyncSet
  rcases h with h | h | h
  · rw [lineOf_eq_none h]
  · rw [edgeOf_eq_none h]; cases lineOf line <;> rfl
  · split
    · rw [if_neg (Nat.not_le.2 h)]
    · rfl
    · rfl

theorem laneSet_badArg (tag n : Byte) (c : RawLane) (t : State) (h : 4 ≤ n.toNat ∨ laneSettingsOf c = none) :
    ownLaneSet tag n c t = t.answer tag .badArg := by
  unfold ownLaneSet
  rcases h with h | h
  · rw [inRange_none h]
  · rw [h]; split <;> rfl

theorem slotSave_badArg (tag g slot : Byte) (label : Label) (t : State) (h : 32 ≤ slot.toNat ∨ 8 ≤ g.toNat) :
    ownSlotSave tag g slot label t = t.answer tag .badArg := by
  unfold ownSlotSave
  rcases h with h | h
  · rw [inRange_none h]
  · rw [inRange_none h]; cases inRange 32 slot <;> rfl

theorem slotLoad_badArg (tag slot g : Byte) (t : State) (h : 32 ≤ slot.toNat ∨ 8 ≤ g.toNat) :
    ownSlotLoad tag slot g t = t.answer tag .badArg := by
  unfold ownSlotLoad
  rcases h with h | h
  · rw [inRange_none h]
  · rw [inRange_none h]; cases inRange 32 slot <;> rfl

theorem setupStart_badArg (tag : Byte) (d : RawDesignation) (t : State)
    (h : 2 ≤ d.present.toNat ∨ (d.present = 1#8 ∧ (32 ≤ d.slot.toNat ∨ 2 ≤ d.line.toNat))) :
    ownSetupStart tag d t = t.answer tag .badArg := by
  have hd : designationOf d = none := by
    unfold designationOf
    rcases h with h | ⟨hp, h | h⟩
    · rw [flagOf_eq_none h]
    · rw [hp, inRange_none h]; rfl
    · rw [hp, lineOf_eq_none h]
      cases inRange 32 d.slot <;> rfl
  simp only [ownSetupStart, hd]

/-- Settles O4: each owner makes its range checks first, and answers BAD_ARG whatever the state. -/
theorem numbersOutOfRangeRefused : Obligations.NumbersOutOfRangeRefused := by
  intro c h code s hreq hbad ha
  have number {n : Nat} {b : Byte} {own : State → State} (hb : decide (n ≤ b.toNat) = true)
      (ho : inRange n b = none → ∀ t : State, own t = t.answer h.tag .badArg) :
      s.taking (fun s => s.request h code none own) = .next (s.replied h code .badArg []) :=
    taking_badArg ha (ho (inRange_none (of_decide_eq_true hb)))
  have line {b : Byte} {own : State → State} (hb : decide (2 ≤ b.toNat) = true)
      (ho : lineOf b = none → ∀ t : State, own t = t.answer h.tag .badArg) :
      s.taking (fun s => s.request h code none own) = .next (s.replied h code .badArg []) :=
    taking_badArg ha (ho (lineOf_eq_none (of_decide_eq_true hb)))
  cases c with
  | groupOpen h' g => cases hreq; exact number hbad fun hn t => by rw [ownGroupOpen, hn]
  | groupClose h' g => cases hreq; exact number hbad fun hn t => by rw [ownGroupClose, hn]
  | groupDrop h' g => cases hreq; exact number hbad fun hn t => by rw [ownGroupDrop, hn]
  | groupQuery h' g => cases hreq; exact number hbad fun hn t => by rw [ownGroupQuery, hn]
  | groupRead h' g f => cases hreq; exact number hbad fun hn t => by rw [ownGroupRead, hn]
  | groupDisarm h' g => cases hreq; exact number hbad fun hn t => by rw [ownGroupDisarm, hn]
  | groupApply h' g => cases hreq; exact number hbad fun hn t => by rw [ownGroupApply, hn]
  | groupAbort h' g => cases hreq; exact number hbad fun hn t => by rw [ownGroupAbort, hn]
  | targetSet h' n c => cases hreq; exact number hbad fun hn t => by rw [ownTargetSet, hn]
  | targetQuery h' n => cases hreq; exact number hbad fun hn t => by rw [ownTargetQuery, hn]
  | targetClear h' n => cases hreq; exact number hbad fun hn t => by rw [ownTargetClear, hn]
  | targetRead h' n r => cases hreq; exact number hbad fun hn t => by rw [ownTargetRead, hn]
  | laneQuery h' n => cases hreq; exact number hbad fun hn t => by rw [ownLaneQuery, hn]
  | loopStart h' n => cases hreq; exact number hbad fun hn t => by rw [ownLoopStart, hn]
  | loopStop h' n => cases hreq; exact number hbad fun hn t => by rw [ownLoopStop, hn]
  | loopQuery h' n => cases hreq; exact number hbad fun hn t => by rw [ownLoopQuery, hn]
  | slotErase h' i => cases hreq; exact number hbad fun hn t => by rw [ownSlotErase, hn]
  | slotProtect h' i => cases hreq; exact number hbad fun hn t => by rw [ownSlotProtect, hn]
  | slotUnprotect h' i => cases hreq; exact number hbad fun hn t => by rw [ownSlotUnprotect, hn]
  | slotLock h' i => cases hreq; exact number hbad fun hn t => by rw [ownSlotLock, hn]
  | groupAdd h' g r =>
    obtain ⟨rfl, rfl, hc⟩ : h' = h ∧ 0x11#8 = code ∧ addLength r = none := by simpa [requestOf] using hreq
    rw [exec_groupAdd hc]
    exact number hbad fun hn t => by rw [ownGroupAdd, hn]
  | groupEdit h' g index values =>
    obtain ⟨rfl, rfl, hc⟩ : h' = h ∧ 0x14#8 = code ∧ editLength values = none := by simpa [requestOf] using hreq
    rw [exec_groupEdit hc]
    exact number hbad fun hn t => by rw [ownGroupEdit, hn]
  | loopSet h' n r =>
    obtain ⟨rfl, rfl, hc⟩ : h' = h ∧ 0x40#8 = code ∧ loopLength r = none := by simpa [requestOf] using hreq
    rw [exec_loopSet hc]
    exact number hbad fun hn t => by rw [ownLoopSet, hn]
  | groupArm h' g l skip mode =>
    cases hreq
    exact taking_badArg ha fun t => groupArm_badArg _ _ _ _ _ t (by simpa [badNumber, or_assoc] using hbad)
  | laneSet h' n r =>
    cases hreq
    exact taking_badArg ha fun t => laneSet_badArg _ _ _ t (by simpa [badNumber] using hbad)
  | syncSet h' l edge window =>
    cases hreq
    exact taking_badArg ha fun t => syncSet_badArg _ _ _ _ t (by simpa [badNumber, or_assoc] using hbad)
  | syncPulse h' l => cases hreq; exact line hbad fun hn t => by rw [ownSyncPulse, hn]
  | syncQuery h' l => cases hreq; exact line hbad fun hn t => by rw [ownSyncQuery, hn]
  | slotSave h' g i label =>
    cases hreq
    exact taking_badArg ha fun t => slotSave_badArg _ _ _ _ t (by simpa [badNumber] using hbad)
  | slotLoad h' i g =>
    cases hreq
    exact taking_badArg ha fun t => slotLoad_badArg _ _ _ t (by simpa [badNumber] using hbad)
  | setupStart h' d =>
    cases hreq
    exact taking_badArg ha fun t => setupStart_badArg _ d t (by simpa [badNumber] using hbad)
  | _ => simp [badNumber] at hbad

/-! ## Building a group (R16 to R19) -/

@[simp] theorem group_accepted (s : State) (h : ReqHead) (c : Byte) (g : Fin 8) :
    (s.accepted h c).group g = s.group g := rfl

@[simp] theorem recordTaken_accepted (s : State) (h : ReqHead) (c : Byte) (r : RawRecord) :
    (s.accepted h c).recordTaken r = s.recordTaken r := rfl

/-- Settles O12. -/
theorem groupOpenTakenInEmpty : Obligations.GroupOpenTakenInEmpty := by
  intro s h g ha
  constructor
  · intro hst hrec
    refine request_replied ha 0x10#8
      (fun t => t.setGroup g { s.group g with state := .opened, records := [] }) .ok [] ?_ rfl rfl
    rw [ownGroupOpen, inRange_natByte_8]
    simp [hst, ← hrec]
  · intro hst
    refine taking_answered ha ?_
    rw [ownGroupOpen, inRange_natByte_8]
    simp [hst]

/-- Settles O13: check by check. -/
theorem groupAddAppendsRecord : Obligations.GroupAddAppendsRecord := by
  intro s h r ha hlen
  have hr : addLength r = none := if_pos hlen
  simp only [exec_groupAdd hr]
  refine ⟨fun b hb => taking_badArg ha fun t => by rw [ownGroupAdd, inRange_none hb], fun g =>
    ⟨fun hst => ?_, fun hst => ⟨fun hx => ?_, fun x hx => ⟨fun hf => ?_, fun hf => ?_⟩⟩⟩⟩
  · refine taking_answered ha ?_
    rw [ownGroupAdd, inRange_natByte_8]
    simp [hst]
  · refine taking_answered ha ?_
    rw [ownGroupAdd, inRange_natByte_8]
    simp [hst, hx]
  · refine taking_answered ha ?_
    rw [ownGroupAdd, inRange_natByte_8]
    simp [hst, hx, hf]
  · refine request_replied ha 0x11#8 (fun t => { t with gtb :=
      { groups := s.gtb.groups.set g { s.group g with records := (s.group g).records ++ [x] }
        free := s.gtb.free - 1 } }) .ok _ ?_ rfl rfl
    have hfree : s.gtb.free + (s.group g).records.length - ((s.group g).records ++ [x]).length = s.gtb.free - 1 := by
      simp; omega
    rw [ownGroupAdd, inRange_natByte_8]
    simp only [group_accepted, recordTaken_accepted, hst, hx, State.accepted_gtb, hf, ne_eq, not_true, if_false,
      State.setRecords, hfree]

/-- Settles O15: check by check. -/
theorem groupCloseMovesToReady : Obligations.GroupCloseMovesToReady := by
  intro s h ha
  refine ⟨fun b hb => taking_badArg ha fun t => by rw [ownGroupClose, inRange_none hb], fun g =>
    ⟨fun hst => ?_, fun hst hr => ?_, fun hst hr => ?_⟩⟩
  · refine taking_answered ha ?_
    rw [ownGroupClose, inRange_natByte_8]
    simp [hst]
  · refine taking_answered ha ?_
    rw [ownGroupClose, inRange_natByte_8]
    simp [hst, hr]
  · refine request_replied ha 0x12#8 (fun t => t.setGroup g { s.group g with state := .ready }) .ok _ ?_ rfl rfl
    rw [ownGroupClose, inRange_natByte_8]
    simp [hst, hr]

/-- What a group dropped leaves: its records are free, its entry is EMPTY, its launch fields cleared (R3, R19). -/
theorem emptyGroup_eq (s : State) (g : Fin 8) :
    s.emptyGroup g = { s with gtb :=
      { groups := s.gtb.groups.set g { (s.group g).cleared with state := .empty, records := [] }
        free := s.gtb.free + (s.group g).records.length } } := by
  simp [State.emptyGroup, State.setRecords, State.setGroup, State.group, GroupEntry.cleared]

/-- Settles O16: check by check. -/
theorem groupDropReleasesRecords : Obligations.GroupDropReleasesRecords := by
  intro s h ha
  refine ⟨fun b hb => taking_badArg ha fun t => by rw [ownGroupDrop, inRange_none hb], fun g =>
    ⟨fun ho hr => ?_, fun hst hp => ?_, fun hst hp => ?_⟩⟩
  · refine taking_answered ha ?_
    rw [ownGroupDrop, inRange_natByte_8]
    simp [ho, hr]
  · refine taking_answered ha ?_
    rw [ownGroupDrop, inRange_natByte_8]
    rcases hst with hst | hst <;> simp [hst, hp]
  · refine (request_replied ha 0x13#8 (fun t => t.emptyGroup g) .ok
      (natHalf (s.gtb.free + (s.group g).records.length)) ?_ rfl rfl).trans ?_
    · rw [ownGroupDrop, inRange_natByte_8]
      rcases hst with hst | hst <;> simp [hst, hp, emptyGroup_eq]
    · simp only [emptyGroup_eq, GroupEntry.cleared]

/-! ## Editing (R14, R20) -/

theorem Record.edited_single (t : Fin 16) (reg : Half) (old : Val) (tgt : Table TargetEntry 16) (vs : List Val) :
    (Record.single t reg old).edited tgt vs =
      if vs.length = 1 ∧ vs.all tgt[t].cfg.dataWidth.admits ∧ reg.toNat ≤ tgt[t].cfg.regWidth.last then
        some (.single t reg (vs.headD 0#32)) else none := by
  match vs with
  | [] => simp [Record.edited]
  | [v] => simp [Record.edited, Record.fits, RegWidth.admits, and_comm]
  | _ :: _ :: _ => simp [Record.edited]

theorem Record.edited_run (t : Fin 16) (reg : Half) (olds : List Val) (tgt : Table TargetEntry 16) (vs : List Val) :
    (Record.run t reg olds).edited tgt vs =
      if vs.length = olds.length ∧ vs.all tgt[t].cfg.dataWidth.admits ∧ tgt[t].cfg.autoInc ∧
          Stride.up.rangeFits tgt[t].cfg.regWidth reg vs.length then some (.run t reg vs) else none := by
  simp only [Record.edited, Record.fits, Bool.and_eq_true]
  congr 1
  simp only [eq_iff_iff]
  tauto

theorem Record.edited_scatter (t : Fin 16) (reg : Half) (st : Stride) (olds : List Val) (tgt : Table TargetEntry 16)
    (vs : List Val) :
    (Record.scatter t reg st olds).edited tgt vs =
      if vs.length = olds.length ∧ vs.all tgt[t].cfg.dataWidth.admits ∧
          st.rangeFits tgt[t].cfg.regWidth reg vs.length then some (.scatter t reg st vs) else none := by
  simp only [Record.edited, Record.fits, Bool.and_eq_true]
  congr 1
  simp only [eq_iff_iff]
  tauto

theorem Record.edited_wait (l : Fin 4) (d : Half) (tgt : Table TargetEntry 16) (vs : List Val) :
    (Record.wait l d).edited tgt vs =
      if vs.length = 1 ∧ 1 ≤ (vs.headD 0#32).toNat ∧ (vs.headD 0#32).toNat ≤ 65535 then
        some (.wait l ((vs.headD 0#32).setWidth 16)) else none := by
  match vs with
  | [] => simp [Record.edited]
  | [v] => simp [Record.edited]
  | _ :: _ :: _ => simp [Record.edited]

theorem Record.edited_setpoint (l : Fin 4) (old : Val) (tgt : Table TargetEntry 16) (vs : List Val) :
    (Record.setpoint l old).edited tgt vs = if vs.length = 1 then some (.setpoint l (vs.headD 0#32)) else none := by
  match vs with
  | [] => simp [Record.edited]
  | [v] => simp [Record.edited]
  | _ :: _ :: _ => simp [Record.edited]

/-- Settles O17: check by check, then form by form. -/
theorem groupEditReplacesValues : Obligations.GroupEditReplacesValues := by
  intro s h index vs ha hlen
  have hv : editLength vs = none := if_pos hlen
  simp only [exec_groupEdit hv]
  refine ⟨fun b hb => taking_badArg ha fun t => by rw [ownGroupEdit, inRange_none hb], fun g =>
    ⟨fun hr hm => ?_, fun hst => ?_⟩, fun t reg old olds st => ?_, fun l d old => ?_⟩
  · refine taking_answered ha ?_
    rw [ownGroupEdit, inRange_natByte_8]
    simp [hr, hm]
  · refine ⟨fun hi => ?_, fun r hr => ⟨fun hx => ?_, fun x hx => ?_⟩⟩
    · refine taking_answered ha ?_
      rw [ownGroupEdit, inRange_natByte_8]
      rcases hst with hst | hst <;> simp [hst, List.getElem?_eq_none hi]
    · refine taking_answered ha ?_
      rw [ownGroupEdit, inRange_natByte_8]
      rcases hst with hst | hst <;> simp [hst, hr, hx]
    · refine request_replied ha 0x14#8 (fun t => t.setGroup g
        { s.group g with records := (s.group g).records.set index.toNat x }) .ok [] ?_ rfl rfl
      rw [ownGroupEdit, inRange_natByte_8]
      rcases hst with hst | hst <;> simp [hst, hr, hx]
  · exact ⟨Record.edited_single .., Record.edited_run .., Record.edited_scatter .., fun _ _ _ _ => rfl⟩
  · exact ⟨Record.edited_wait .., Record.edited_setpoint ..⟩

/-! ## Reading (R23, R24) -/

/-- The two launch flags in one byte (10.6). -/
theorem launchFlags (a b : Bool) :
    flagByte a ||| (flagByte b <<< 1) = (if a then 1#8 else 0#8) + (if b then 2#8 else 0#8) := by
  cases a <;> cases b <;> rfl

/-- The launch fields as 10.6 lays them out. -/
theorem launchBytes_eq (x : GroupEntry) :
    x.launchBytes =
      [x.lastOutcome.byte, (if x.late then 1#8 else 0#8) + (if x.overrunSeen then 2#8 else 0#8)] ++
      natHalf x.done ++ natHalf x.failed ++ natHalf x.skipped ++ natHalf x.withdrawn ++
      (match x.firstFailure with
        | none => [0#8, 0#8, 0#8, 0#8, 0#8]
        | some ⟨i, r, none⟩ => [1#8, natByte i, r.byte, 0#8, 0#8]
        | some ⟨i, r, some k⟩ => [1#8, natByte i, r.byte, 1#8, natByte k]) ++
      (match x.launchEdge with
        | none => [0#8, 0#8, 0#8, 0#8]
        | some e => 1#8 :: (halfBytes e.number ++ [lineByte e.line])) := by
  have failure : optional 4 (x.firstFailure.map fun f =>
      [natByte f.index, f.reason.byte] ++ optional 1 (f.item.map fun i => [natByte i])) =
      (match x.firstFailure with
        | none => [0#8, 0#8, 0#8, 0#8, 0#8]
        | some ⟨i, r, none⟩ => [1#8, natByte i, r.byte, 0#8, 0#8]
        | some ⟨i, r, some k⟩ => [1#8, natByte i, r.byte, 1#8, natByte k]) := by
    rcases x.firstFailure with _ | ⟨i, r, _ | k⟩ <;> rfl
  have edge : optional 3 (x.launchEdge.map fun e => halfBytes e.number ++ [lineByte e.line]) =
      (match x.launchEdge with
        | none => [0#8, 0#8, 0#8, 0#8]
        | some e => 1#8 :: (halfBytes e.number ++ [lineByte e.line])) := by
    cases x.launchEdge <;> rfl
  rw [GroupEntry.launchBytes, failure, edge, launchFlags]

/-- The size of a record is the number of its bytes (R133). -/
theorem Record.length_bytes (r : Record) : r.bytes.length = r.size := by
  have values (vs : List Val) : (vs.flatMap valBytes).length = 4 * vs.length := by
    induction vs with
    | nil => rfl
    | cons v vs ih => rw [List.flatMap_cons, List.length_append, ih, length_valBytes, List.length_cons]; omega
  cases r <;> simp [Record.bytes, Record.size, values] <;> omega

/-- As many records as fit: a first part of the list, at most `n` long and within the room, that ends where one of the
three bounds is met (R24). -/
theorem recordsFitting_spec (n room : Nat) (l : List Record) :
    recordsFitting n room l <+: l ∧ (recordsFitting n room l).length ≤ n ∧
    ((recordsFitting n room l).flatMap Record.bytes).length ≤ room ∧
    ((recordsFitting n room l).length = n ∨ recordsFitting n room l = l ∨
      ∃ r, recordsFitting n room l ++ [r] <+: l ∧
        room < ((recordsFitting n room l ++ [r]).flatMap Record.bytes).length) := by
  induction n generalizing room l with
  | zero => simp [recordsFitting]
  | succ n ih =>
    cases l with
    | nil => simp [recordsFitting]
    | cons r l =>
      by_cases hr : r.size ≤ room
      · obtain ⟨hp, hn, hb, hend⟩ := ih (room - r.size) l
        simp only [recordsFitting, if_pos hr, List.flatMap_cons, List.length_append, Record.length_bytes,
          List.length_cons, List.cons_append, List.cons_prefix_cons, List.cons.injEq, true_and]
        refine ⟨hp, by omega, by omega, ?_⟩
        rcases hend with hl | hl | ⟨x, hx, hlt⟩
        · exact .inl (by omega)
        · exact .inr (.inl hl)
        · exact .inr (.inr ⟨x, hx, by omega⟩)
      · simp only [recordsFitting, if_neg hr]
        refine ⟨List.nil_prefix, Nat.zero_le _, Nat.zero_le _, .inr (.inr ⟨r, ?_, ?_⟩)⟩
        · simp
        · simpa [Record.length_bytes] using hr

/-- Settles O18. -/
theorem groupReadsChangeNothing : Obligations.GroupReadsChangeNothing := by
  refine ⟨launchBytes_eq, rfl, fun _ => rfl, fun t k reg attempts v mask expect vs gap =>
    ⟨rfl, rfl, rfl, rfl, rfl, rfl, rfl, rfl⟩, fun s h g ha => ⟨?_, fun first => ⟨fun hf => ?_, fun hl hne => ?_⟩⟩⟩
  · refine taking_answered ha ?_
    rw [ownGroupQuery, inRange_natByte_8]
    rfl
  · obtain ⟨hp, hn, hb, hend⟩ := recordsFitting_spec 8 596 ((s.group g).records.drop first.toNat)
    refine ⟨_, hp, hn, hb, hend, taking_answered ha ?_⟩
    rw [ownGroupRead, inRange_natByte_8]
    exact if_pos hf
  · refine taking_answered ha ?_
    rw [ownGroupRead, inRange_natByte_8]
    exact if_neg (by rintro (h' | ⟨h0, hr⟩); exacts [absurd h' (Nat.not_lt.2 hl), hne.elim (· h0) (· hr)])

/-! ## The reset state -/

/-- Every entry of the group table after reset is a reset entry (R27). -/
theorem group_reset (g : Fin 8) : State.reset.group g = GroupEntry.reset := by
  simp [State.group, State.reset, Gtb.reset]

theorem account_reset (g : Fin 8) : State.reset.account g = Account.reset := by simp [State.account, State.reset]

theorem lane_reset (l : Fin 4) : State.reset.lane l = Lane.reset := by simp [State.lane, State.reset]

theorem loop_reset (n : Fin 4) : State.reset.loop n = LoopEntry.reset := by simp [State.loop, State.reset]

theorem slot_reset (i : Fin 32) : State.reset.slot i = ⟨.blank, true, false⟩ := by
  simp [State.slot, State.reset, Psc.reset]

/-- After reset no job is queued or in flight (R40). -/
theorem queuedCount_reset (p : Job → Bool) : State.reset.queuedCount p = 0 := by
  simp [State.queuedCount, lane_reset, Lane.reset]

theorem flightCount_reset (p : Job → Bool) : State.reset.flightCount p = 0 := by
  simp [State.flightCount, lane_reset, Lane.reset]

theorem armLaw_reset : State.reset.armLaw := by
  refine ⟨List.nodup_nil, fun a ha => ?_, fun g hg => ?_, fun g hg => ?_⟩
  · cases ha
  · simp [group_reset, GroupEntry.reset] at hg
  · simp [account_reset, Account.reset] at hg

theorem lockLaw_reset : State.reset.lockLaw := by
  refine ⟨fun _ => ⟨rfl, rfl⟩, fun _ => rfl, fun _ h => (h rfl).elim, fun op h => ?_⟩
  cases h

theorem jobsLaw_reset : State.reset.jobsLaw := by
  intro n
  simp [loop_reset, LoopEntry.reset, queuedCount_reset, flightCount_reset, LoopState.running]

theorem workLaw_reset : State.reset.workLaw := by
  constructor
  · intro w h
    cases h
  · intro x h
    cases h

/-- Settles O6: law by law. -/
theorem resetKeepsEveryLaw : Obligations.ResetKeepsEveryLaw := by
  refine ⟨?hostLimits, poolLaw_reset rfl, emptyLaw_reset rfl, armLaw_reset, ?pendingLaw, ?guardLaw, rfl, ?cut,
    lockLaw_reset, ?laneLaw, jobsLaw_reset, workLaw_reset, ?wf⟩
  case hostLimits => decide
  case pendingLaw =>
    intro g
    rw [account_reset, queuedCount_reset, flightCount_reset]
    rfl
  case guardLaw =>
    intro i h
    rw [slot_reset]
  case cut => decide
  case laneLaw =>
    intro l _
    rw [lane_reset]
    rfl
  case wf => exact ⟨List.Pairwise.nil, fun _ h => by cases h⟩

end Sys2Proof.Machine
end

section
/-! SUPPORT. Which records a GROUP.ADD takes, form by form (R6 to R12, R14, R15). -/

namespace Sys2Proof.Machine

/-! ## From the checks of the items to the check against the target entry -/

theorem recordTaken_none (s : State) {r : RawRecord} (h : recordOf r = none) : s.recordTaken r = none := by
  simp only [State.recordTaken, h]

/-- A record with a target is taken when it fits the target's entry as it stands (R14). -/
theorem recordTaken_target (s : State) {r : RawRecord} {x : Record} {t : Fin 16} (h : recordOf r = some x)
    (ht : x.target = some t) : s.recordTaken r = if x.fits (s.target t).cfg then some x else none := by
  simp only [State.recordTaken, h, ht]

/-- A WAIT or a SETPOINT consults no target entry (R11, R12). -/
theorem recordTaken_free (s : State) {r : RawRecord} {x : Record} (h : recordOf r = some x) (ht : x.target = none) :
    s.recordTaken r = some x := by
  simp only [State.recordTaken, h, ht]

section Items

variable (which small : Byte) (word attempts : Half) (values : List Val)

/-! ### The checks of the items, form by form (R15, R202) -/

theorem recordOf_single (v : Val) :
    recordOf ⟨1#8, which, word, small, attempts, [v]⟩ = (inRange 16 which).map fun t => .single t word v := rfl

theorem recordOf_run :
    recordOf ⟨2#8, which, word, small, attempts, values⟩ =
      if 2 ≤ values.length ∧ values.length ≤ 32 then (inRange 16 which).map fun t => .run t word values else none := rfl

theorem recordOf_scatter :
    recordOf ⟨3#8, which, word, small, attempts, values⟩ =
      if 1 ≤ values.length ∧ values.length ≤ 32 then
        (inRange 16 which).bind fun t => (strideOf small).map fun st => .scatter t word st values
      else none := rfl

theorem recordOf_poll (mask expect : Val) :
    recordOf ⟨4#8, which, word, small, attempts, [mask, expect]⟩ =
      if 1 ≤ attempts.toNat ∧ attempts.toNat ≤ 1024 ∧ small ≠ 0#8 ∧ expect &&& ~~~mask = 0#32 then
        (inRange 16 which).map fun t => .poll t word mask expect attempts small
      else none := rfl

theorem recordOf_wait :
    recordOf ⟨5#8, which, word, small, attempts, []⟩ =
      if word ≠ 0#16 then (inRange 4 which).map fun l => .wait l word else none := rfl

theorem recordOf_setpoint (v : Val) :
    recordOf ⟨6#8, which, word, small, attempts, [v]⟩ = (inRange 4 which).map fun n => .setpoint n v := rfl

/-- A SINGLE or a SETPOINT has one value. -/
theorem recordOf_single_count (h : values.length ≠ 1) :
    recordOf ⟨1#8, which, word, small, attempts, values⟩ = none := by
  match values with
  | [] => rfl
  | [_] => exact absurd rfl h
  | _ :: _ :: _ => rfl

theorem recordOf_setpoint_count (h : values.length ≠ 1) :
    recordOf ⟨6#8, which, word, small, attempts, values⟩ = none := by
  match values with
  | [] => rfl
  | [_] => exact absurd rfl h
  | _ :: _ :: _ => rfl

/-- A POLL has a mask and an expected value. -/
theorem recordOf_poll_count (h : values.length ≠ 2) : recordOf ⟨4#8, which, word, small, attempts, values⟩ = none := by
  match values with
  | [] => rfl
  | [_] => rfl
  | [_, _] => exact absurd rfl h
  | _ :: _ :: _ :: _ => rfl

/-- A WAIT has no value. -/
theorem recordOf_wait_count (h : values ≠ []) : recordOf ⟨5#8, which, word, small, attempts, values⟩ = none := by
  match values with
  | [] => exact absurd rfl h
  | _ :: _ => rfl

/-- No form has the code 0 or a code above 6. -/
theorem recordOf_form {form : Byte} (h : form.toNat = 0 ∨ 7 ≤ form.toNat) :
    recordOf ⟨form, which, word, small, attempts, values⟩ = none := by
  rcases h with h | h
  · unfold recordOf
    rw [h]
    rfl
  · obtain ⟨m, hm⟩ := Nat.exists_eq_add_of_le' h
    unfold recordOf
    rw [hm]
    rfl

/-- A target out of range, in the forms that name one (R15). -/
theorem recordOf_target {form : Byte} (hf : form.toNat < 5) (h : inRange 16 which = none) :
    recordOf ⟨form, which, word, small, attempts, values⟩ = none := by
  have forms : form = 0#8 ∨ form = 1#8 ∨ form = 2#8 ∨ form = 3#8 ∨ form = 4#8 := by bv_omega
  rcases forms with rfl | rfl | rfl | rfl | rfl
  · exact recordOf_form _ _ _ _ _ (.inl rfl)
  · by_cases hn : values.length = 1
    · obtain ⟨v, rfl⟩ := List.length_eq_one_iff.1 hn
      rw [recordOf_single, h, Option.map_none]
    · exact recordOf_single_count _ _ _ _ _ hn
  · rw [recordOf_run, h, Option.map_none, ite_self]
  · rw [recordOf_scatter, h, Option.bind_none, ite_self]
  · by_cases hn : values.length = 2
    · obtain ⟨mask, expect, rfl⟩ := List.length_eq_two.1 hn
      rw [recordOf_poll, h, Option.map_none, ite_self]
    · exact recordOf_poll_count _ _ _ _ _ hn

/-- A lane or a loop out of range (R15). -/
theorem recordOf_lane {form : Byte} (hf : 5 ≤ form.toNat) (h : inRange 4 which = none) :
    recordOf ⟨form, which, word, small, attempts, values⟩ = none := by
  have forms : form = 5#8 ∨ form = 6#8 ∨ 7 ≤ form.toNat := by bv_omega
  rcases forms with rfl | rfl | h7
  · by_cases hn : values = []
    · rw [hn, recordOf_wait, h, Option.map_none, ite_self]
    · exact recordOf_wait_count _ _ _ _ _ hn
  · by_cases hn : values.length = 1
    · obtain ⟨v, rfl⟩ := List.length_eq_one_iff.1 hn
      rw [recordOf_setpoint, h, Option.map_none]
    · exact recordOf_setpoint_count _ _ _ _ _ hn
  · exact recordOf_form _ _ _ _ _ (.inr h7)

/-- A form code, target, lane or loop out of range (R15, R202). -/
theorem recordOf_outOfRange {form : Byte}
    (h : form.toNat = 0 ∨ 7 ≤ form.toNat ∨ 16 ≤ which.toNat ∨ (5 ≤ form.toNat ∧ 4 ≤ which.toNat)) :
    recordOf ⟨form, which, word, small, attempts, values⟩ = none := by
  rcases Nat.lt_or_ge form.toNat 5 with hf | hf
  · rcases h with h | h | h | h
    · exact recordOf_form _ _ _ _ _ (.inl h)
    · omega
    · exact recordOf_target _ _ _ _ _ hf (inRange_none h)
    · omega
  · rcases Nat.lt_or_ge form.toNat 7 with h7 | h7
    · exact recordOf_lane _ _ _ _ _ hf (inRange_none (by omega))
    · exact recordOf_form _ _ _ _ _ (.inr h7)

end Items

/-! ### What is taken, form by form -/

section Forms

variable (s : State) (t : Fin 16) (reg attempts : Half) (small : Byte) (vs : List Val)

theorem recordTaken_single :
    s.recordTaken ⟨1#8, natByte t.val, reg, small, attempts, vs⟩ =
      if vs.length = 1 ∧ reg.toNat ≤ (s.target t).cfg.regWidth.last ∧ vs.all (s.target t).cfg.dataWidth.admits then
        some (.single t reg (vs.headD 0#32)) else none := by
  by_cases hn : vs.length = 1
  · obtain ⟨v, rfl⟩ := List.length_eq_one_iff.1 hn
    rw [recordTaken_target s (x := .single t reg v) (t := t) (by rw [recordOf_single, inRange_natByte_16]; rfl) rfl]
    simp [Record.fits, RegWidth.admits]
  · rw [recordTaken_none s (recordOf_single_count _ _ _ _ _ hn), if_neg fun h => hn h.1]

theorem recordTaken_run :
    s.recordTaken ⟨2#8, natByte t.val, reg, small, attempts, vs⟩ =
      if 2 ≤ vs.length ∧ vs.length ≤ 32 ∧ reg.toNat + (vs.length - 1) ≤ (s.target t).cfg.regWidth.last ∧
          vs.all (s.target t).cfg.dataWidth.admits ∧ (s.target t).cfg.autoInc = true then
        some (.run t reg vs) else none := by
  by_cases hn : 2 ≤ vs.length ∧ vs.length ≤ 32
  · have hr : reg.toNat + vs.length ≤ (s.target t).cfg.regWidth.last + 1 ↔
        reg.toNat + (vs.length - 1) ≤ (s.target t).cfg.regWidth.last := by omega
    rw [recordTaken_target s (x := .run t reg vs) (t := t)
      (by rw [recordOf_run, if_pos hn, inRange_natByte_16]; rfl) rfl]
    simp [Record.fits, Stride.rangeFits, hn, hr, and_assoc]
  · rw [recordTaken_none s (by rw [recordOf_run, if_neg hn]), if_neg fun h => hn ⟨h.1, h.2.1⟩]

/-- A SCATTER is taken when its count is in range and every register and value fits (R9). -/
theorem recordTaken_scatter {st : Stride} (hst : strideOf small = some st) :
    s.recordTaken ⟨3#8, natByte t.val, reg, small, attempts, vs⟩ =
      if (1 ≤ vs.length ∧ vs.length ≤ 32) ∧ st.rangeFits (s.target t).cfg.regWidth reg vs.length ∧
          vs.all (s.target t).cfg.dataWidth.admits then some (.scatter t reg st vs) else none := by
  by_cases hn : 1 ≤ vs.length ∧ vs.length ≤ 32
  · rw [recordTaken_target s (x := .scatter t reg st vs) (t := t)
      (by rw [recordOf_scatter, if_pos hn, inRange_natByte_16, hst]; rfl) rfl]
    simp [Record.fits, hn]
  · rw [recordTaken_none s (by rw [recordOf_scatter, if_neg hn]), if_neg fun h => hn h.1]

theorem recordTaken_scatter_none (hst : strideOf small = none) :
    s.recordTaken ⟨3#8, natByte t.val, reg, small, attempts, vs⟩ = none :=
  recordTaken_none s (by rw [recordOf_scatter, hst]; simp)

/-- The registers of a SCATTER that steps up run to `reg` and its further items (R9). -/
theorem Stride.rangeFits_up (w : RegWidth) (r : Half) {n : Nat} (hn : 1 ≤ n) :
    Stride.up.rangeFits w r n = true ↔ r.toNat + (n - 1) ≤ w.last := by
  simp only [Stride.rangeFits, decide_eq_true_eq]
  omega

/-- Those of one that steps down run from `reg` to at least 0 (R9). -/
theorem Stride.rangeFits_down (w : RegWidth) (r : Half) (n : Nat) :
    Stride.down.rangeFits w r n = true ↔ r.toNat ≤ w.last ∧ n - 1 ≤ r.toNat := by
  simp only [Stride.rangeFits, RegWidth.admits, Bool.and_eq_true, decide_eq_true_eq]
  omega

theorem Stride.rangeFits_stay (w : RegWidth) (r : Half) (n : Nat) :
    Stride.stay.rangeFits w r n = true ↔ r.toNat ≤ w.last := decide_eq_true_iff

theorem recordTaken_poll :
    s.recordTaken ⟨4#8, natByte t.val, reg, small, attempts, vs⟩ =
      if vs.length = 2 ∧ reg.toNat ≤ (s.target t).cfg.regWidth.last ∧ vs.all (s.target t).cfg.dataWidth.admits ∧
          vs.getD 1 0#32 &&& ~~~(vs.getD 0 0#32) = 0#32 ∧ 1 ≤ attempts.toNat ∧ attempts.toNat ≤ 1024 ∧
          1 ≤ small.toNat then
        some (.poll t reg (vs.getD 0 0#32) (vs.getD 1 0#32) attempts small) else none := by
  by_cases hn : vs.length = 2
  · obtain ⟨mask, expect, rfl⟩ := List.length_eq_two.1 hn
    have hs : 1 ≤ small.toNat ↔ small ≠ 0#8 := by bv_omega
    by_cases hc : 1 ≤ attempts.toNat ∧ attempts.toNat ≤ 1024 ∧ small ≠ 0#8 ∧ expect &&& ~~~mask = 0#32
    · rw [recordTaken_target s (x := .poll t reg mask expect attempts small) (t := t)
        (by rw [recordOf_poll, if_pos hc, inRange_natByte_16]; rfl) rfl]
      obtain ⟨h1, h2, h3, h4⟩ := hc
      simp [Record.fits, RegWidth.admits, h1, h2, hs, h3, h4, and_assoc]
    · rw [recordTaken_none s (by rw [recordOf_poll, if_neg hc]), if_neg]
      rintro ⟨-, -, -, h4, h1, h2, h3⟩
      exact hc ⟨h1, h2, hs.1 h3, h4⟩
  · rw [recordTaken_none s (recordOf_poll_count _ _ _ _ _ hn), if_neg fun h => hn h.1]

theorem recordTaken_wait (l : Fin 4) :
    s.recordTaken ⟨5#8, natByte l.val, reg, small, attempts, vs⟩ =
      if vs = [] ∧ 1 ≤ reg.toNat then some (.wait l reg) else none := by
  have hr : 1 ≤ reg.toNat ↔ reg ≠ 0#16 := by bv_omega
  by_cases hn : vs = []
  · by_cases h : reg ≠ 0#16
    · rw [hn, recordTaken_free s (x := .wait l reg) (by rw [recordOf_wait, if_pos h, inRange_natByte_4]; rfl) rfl,
        if_pos ⟨rfl, hr.2 h⟩]
    · rw [hn, recordTaken_none s (by rw [recordOf_wait, if_neg h]), if_neg fun hx => h (hr.1 hx.2)]
  · rw [recordTaken_none s (recordOf_wait_count _ _ _ _ _ hn), if_neg fun h => hn h.1]

theorem recordTaken_setpoint (n : Fin 4) :
    s.recordTaken ⟨6#8, natByte n.val, reg, small, attempts, vs⟩ =
      if vs.length = 1 then some (.setpoint n (vs.headD 0#32)) else none := by
  by_cases hn : vs.length = 1
  · obtain ⟨v, rfl⟩ := List.length_eq_one_iff.1 hn
    exact recordTaken_free s (by rw [recordOf_setpoint, inRange_natByte_4]; rfl) rfl
  · rw [recordTaken_none s (recordOf_setpoint_count _ _ _ _ _ hn), if_neg hn]

end Forms

/-- Settles O14: form by form. -/
theorem recordChecksByForm : Obligations.RecordChecksByForm := by
  intro s reg attempts small vs
  refine ⟨fun t => ⟨recordTaken_single .., recordTaken_run .., ?up, ?stay, ?down, ?other, recordTaken_poll ..⟩,
    recordTaken_wait s reg attempts small vs, recordTaken_setpoint s reg attempts small vs,
    fun form which h => recordTaken_none s (recordOf_outOfRange _ _ _ _ _ h)⟩
  case up =>
    rintro rfl
    refine (recordTaken_scatter s t reg attempts _ vs (st := .up) rfl).trans (if_congr ?_ rfl rfl)
    rw [and_assoc]
    exact and_congr_right fun hn => by rw [Stride.rangeFits_up _ _ hn]; rfl
  case stay =>
    rintro rfl
    refine (recordTaken_scatter s t reg attempts _ vs (st := .stay) rfl).trans (if_congr ?_ rfl rfl)
    rw [and_assoc, Stride.rangeFits_stay]
    rfl
  case down =>
    rintro rfl
    refine (recordTaken_scatter s t reg attempts _ vs (st := .down) rfl).trans (if_congr ?_ rfl rfl)
    rw [and_assoc, Stride.rangeFits_down, and_assoc]
    rfl
  case other =>
    intro h1 h0 hF
    exact recordTaken_scatter_none s t reg attempts small vs (by simp [strideOf, h1, h0, hF])

end Sys2Proof.Machine
end

section
/-! SUPPORT. PART.RESET SEQUENCER: what the cut of the lanes and the store's part leave (R28, R57, R172, R186). -/

namespace Sys2Proof.Machine

/-! ## What the reports of a cut leave alone -/

/-- A sync line but for its window. -/
abbrev SyncLine.closed (x : SyncLine) : SyncLine := { x with opened := none }

/-- What no report of a job's end changes: the lanes, the targets, and the sync lines but for their windows. -/
def State.besideReports (s : State) : Table Lane 4 × Table TargetEntry 16 × SyncLine × SyncLine :=
  (s.lanes, s.tgt, s.sau.line0.closed, s.sau.line1.closed)

theorem lanes_of_besideReports {s t : State} (h : t.besideReports = s.besideReports) : t.lanes = s.lanes :=
  congrArg Prod.fst h

/-- A fold of steps that leave these alone leaves them alone. -/
theorem besideReports_foldl {α : Type} {f : State → α → State} (h : ∀ s a, (f s a).besideReports = s.besideReports)
    (l : List α) (s : State) : (l.foldl f s).besideReports = s.besideReports :=
  foldl_keeps (P := fun t => t.besideReports = s.besideReports) (fun t a ht => (h t a).trans ht) l s rfl

theorem besideReports_recordEnd (s : State) (g : Fin 8) (i : Nat) (e : RecordEnd) :
    (s.recordEnd g i e).besideReports = s.besideReports := by
  simp only [State.recordEnd]
  split_ifs <;> rfl

theorem besideReports_handOn (s : State) (t : Fin 16) (w : List (Half × Val)) :
    (s.handOn t w).besideReports = s.besideReports := by
  refine besideReports_foldl (fun u n => ?_) _ s
  simp only [State.adopt]
  split
  · rfl
  · split_ifs <;> rfl

theorem besideReports_cutJob (s : State) (j : Job) : (s.cutJob j).besideReports = s.besideReports := by
  cases j with
  | record g i r => exact besideReports_recordEnd s g i _
  | loop n kd t reg v => rfl
  | read tag t reg => rfl

theorem besideReports_cutFlight (s : State) (f : Flight) : (s.cutFlight f).besideReports = s.besideReports := by
  unfold State.cutFlight
  split
  · exact (besideReports_handOn ..).trans (besideReports_recordEnd ..)
  all_goals exact besideReports_cutJob s _

theorem besideReports_cutAccounts (s : State) : s.cutAccounts.besideReports = s.besideReports := by
  unfold State.cutAccounts
  refine besideReports_foldl (fun t g => ?_) _ s
  split_ifs <;> rfl

theorem besideReports_cancelLoops (s : State) : s.cancelLoops.besideReports = s.besideReports := by
  unfold State.cancelLoops
  exact besideReports_foldl (fun _ _ => by rfl) _ s

theorem besideReports_drawn (s : State) : s.drawn.besideReports = s.besideReports := rfl

/-! ## A lane under the cut -/

/-- A lane after its next report: the job in flight is cut, or the head of its queue is gone (R57). -/
def Lane.afterCut (x : Lane) (place : Nat) : Lane :=
  match x.flight, x.queue with
  | some _, _ => { x with flight := none, bus := x.cutBus place }
  | none, _ :: q => { x with queue := q }
  | none, [] => x

theorem Lane.afterCut_settings (x : Lane) (p : Nat) : (x.afterCut p).settings = x.settings := by
  unfold Lane.afterCut
  split <;> rfl

/-- A report takes the first of the lane's jobs. -/
theorem Lane.afterCut_jobs (x : Lane) (p : Nat) : (x.afterCut p).jobs = x.jobs.tail := by
  obtain ⟨settings, queue, flight, bus⟩ := x
  cases flight with
  | some f => rfl
  | none => cases queue <;> rfl

/-- A lane without jobs is IDLE with an empty queue. -/
theorem Lane.jobs_eq_nil {x : Lane} (h : x.jobs = []) : x.flight = none ∧ x.queue = [] := by
  obtain ⟨settings, queue, flight, bus⟩ := x
  cases flight with
  | some f => cases h
  | none => exact ⟨rfl, h⟩

theorem setLane_lane (s : State) (l : Fin 4) : s.setLane l (s.lane l) = s := by
  simp [State.setLane, State.lane]

/-- A lane's next report changes that lane, and nothing else that a report leaves alone. -/
theorem besideReports_cutNext (k : Nat) (s : State) (l : Fin 4) :
    (State.cutNext k s l).besideReports =
      (s.setLane l ((s.lane l).afterCut (Config.cutPlace k l.val))).besideReports := by
  simp only [State.cutNext]
  cases hf : (s.lane l).flight with
  | some f => simp only [Lane.afterCut, hf, besideReports_cutFlight]
  | none =>
    cases hq : (s.lane l).queue with
    | cons j q => simp only [Lane.afterCut, hf, hq, besideReports_cutJob]
    | nil => simp only [Lane.afterCut, hf, hq, setLane_lane]

theorem lane_cutNext (k : Nat) (s : State) (l m : Fin 4) :
    (State.cutNext k s l).lane m =
      if l = m then (s.lane l).afterCut (Config.cutPlace k l.val) else s.lane m := by
  rw [← State.lane_setLane, State.lane, lanes_of_besideReports (besideReports_cutNext k s l)]
  rfl

theorem lane_cutNext_settings (k : Nat) (s : State) (l m : Fin 4) :
    ((State.cutNext k s l).lane m).settings = (s.lane m).settings := by
  rw [lane_cutNext]
  split_ifs with h
  · rw [Lane.afterCut_settings, h]
  · rfl

theorem lane_cutNext_jobs (k : Nat) (s : State) (l m : Fin 4) :
    ((State.cutNext k s l).lane m).jobs.length =
      if m = l then (s.lane m).jobs.length - 1 else (s.lane m).jobs.length := by
  rw [lane_cutNext]
  by_cases h : l = m
  · rw [if_pos h, if_pos h.symm, Lane.afterCut_jobs, List.length_tail, h]
  · rw [if_neg h, if_neg (Ne.symm h)]

/-! ## The reports empty the lanes -/

/-- From a list that is not empty an item is chosen. -/
theorem oneOf_isSome {α : Type} (k : Nat) {l : List α} (h : l ≠ []) : ∃ x ∈ l, oneOf k l = some x := by
  match l with
  | [] => exact absurd rfl h
  | [x] => exact ⟨x, List.mem_singleton_self x, rfl⟩
  | x :: y :: l =>
    have hk : k % (l.length + 2) < (x :: y :: l).length := Nat.mod_lt _ (Nat.succ_pos _)
    exact ⟨_, List.getElem_mem hk, List.getElem?_eq_getElem hk⟩

theorem sum_upTo (left : Fin 4 → Nat) : ((upTo 4).map left).sum = ∑ l, left l := (Fin.sum_univ_def left).symm

/-- When every lane has made as many reports as it has jobs, no lane has a job left (R57). -/
theorem cutNext_empties (k : Nat) (pick : Nat → Nat) (n : Nat) (left : Fin 4 → Nat) (s : State)
    (hleft : ∀ l, (s.lane l).jobs.length = left l) (hn : ∑ l, left l = n) (m : Fin 4) :
    (((reportOrder pick n left).foldl (State.cutNext k) s).lane m).jobs = [] := by
  induction n generalizing left s with
  | zero =>
    have h0 : left m = 0 := (Finset.sum_eq_zero_iff.1 hn) m (Finset.mem_univ m)
    exact List.eq_nil_of_length_eq_zero ((hleft m).trans h0)
  | succ n ih =>
    have ready : (upTo 4).filter (fun l => left l != 0) ≠ [] := by
      intro he
      have zero (l : Fin 4) : left l = 0 := by
        simpa using List.filter_eq_nil_iff.1 he l (List.mem_finRange l)
      simp [zero] at hn
    obtain ⟨l, hl, hpick⟩ := oneOf_isSome (pick n) ready
    have hpos : left l ≠ 0 := by simpa using (List.mem_filter.1 hl).2
    simp only [reportOrder, hpick, List.foldl_cons]
    refine ih _ _ (fun j => ?_) ?_
    · rw [lane_cutNext_jobs, hleft]
    · have h := sum_change (f := left) (f' := fun j => if j = l then left j - 1 else left j) l fun j hj => if_neg hj
      simp only [if_pos] at h
      omega

theorem besideReports_cutLanes (s : State) :
    s.cutLanes.besideReports = (s.cutOrder.foldl (State.cutNext s.fresh) s.cutAccounts).besideReports := by
  unfold State.cutLanes
  rw [besideReports_drawn, besideReports_cancelLoops]

/-- After the reports of a reset no lane has a job (R57). -/
theorem cutLanes_jobs (s : State) (l : Fin 4) : (s.cutLanes.lane l).jobs = [] := by
  have accounts : s.cutAccounts.lanes = s.lanes := lanes_of_besideReports (besideReports_cutAccounts s)
  have h := cutNext_empties s.fresh (Config.cutFirst s.fresh) _ (fun l => (s.lane l).jobs.length) s.cutAccounts
    (fun l => by rw [State.lane, accounts]; rfl) (sum_upTo _).symm l
  rw [State.lane, lanes_of_besideReports (besideReports_cutLanes s)]
  exact h

/-- The lanes' settings outlast a reset of the lanes (R57). -/
theorem cutLanes_settings (s : State) (l : Fin 4) : (s.cutLanes.lane l).settings = (s.lane l).settings := by
  have accounts : s.cutAccounts.lanes = s.lanes := lanes_of_besideReports (besideReports_cutAccounts s)
  have h := foldl_keeps (P := fun t => (t.lane l).settings = (s.lane l).settings)
    (fun t m ht => (lane_cutNext_settings s.fresh t m l).trans ht) s.cutOrder s.cutAccounts
    (by rw [State.lane, accounts]; rfl)
  rw [State.lane, lanes_of_besideReports (besideReports_cutLanes s)]
  exact h

/-- So do the targets and the sync lines, but for their windows (R57, R76). -/
theorem cutLanes_besideLanes (s : State) : s.cutLanes.besideReports.2 = s.besideReports.2 := by
  have h := foldl_keeps (P := fun t => t.besideReports.2 = s.besideReports.2)
    (fun t m ht => (congrArg Prod.snd (besideReports_cutNext s.fresh t m)).trans ht) s.cutOrder s.cutAccounts
    (congrArg Prod.snd (besideReports_cutAccounts s))
  exact (congrArg Prod.snd (besideReports_cutLanes s)).trans h

/-! ## What the store's part leaves alone -/

/-- What no store operation changes. -/
def State.besideStore (s : State) :
    Table Lane 4 × Table TargetEntry 16 × Sau × Table LoopEntry 4 × Suc × Pins × Table Bool 32 :=
  (s.lanes, s.tgt, s.sau, s.tlu, s.suc, s.pins, s.nv.locks)

theorem besideStore_replyTo (s : State) (op : StoreOp) (st : Status) (r : List Byte) :
    (s.replyTo op st r).besideStore = s.besideStore := by
  unfold State.replyTo
  split <;> rfl

theorem besideStore_release (s : State) (g : Fin 8) : (s.release g).besideStore = s.besideStore := by
  unfold State.release
  split_ifs <;> rfl

theorem besideStore_setOpSlot (s : State) (op : StoreOp) (x : SlotState) :
    (s.setOpSlot op x).besideStore = s.besideStore := by
  unfold State.setOpSlot
  split <;> rfl

theorem besideStore_startErase (s : State) (w : Work) : (s.startErase w).besideStore = s.besideStore := by
  have engine (t : State) (e : Engine) : (t.setEngine e).besideStore = t.besideStore := rfl
  have mem (t : State) (m : List Host.Cell) : (t.setMem m).besideStore = t.besideStore := rfl
  unfold State.startErase
  rw [engine, besideStore_setOpSlot, mem]

theorem besideStore_startOp (s : State) (op : StoreOp) : (s.startOp op).besideStore = s.besideStore := by
  have unpin (g : Fin 8) : (s.unpin g).besideStore = s.besideStore := rfl
  unfold State.startOp
  split
  · rfl
  · split
    · rw [besideStore_replyTo, unpin]
    · rw [besideStore_startErase, unpin]
  · split
    · exact besideStore_replyTo ..
    · exact besideStore_startErase ..
  · exact besideStore_startErase ..
  · split_ifs
    · exact besideStore_replyTo ..
    · rfl

theorem besideStore_choose (s : State) : s.choose.besideStore = s.besideStore := by
  unfold State.choose
  generalize s.psc.queue.length = n
  induction n generalizing s with
  | zero => rfl
  | succ n ih =>
    simp only [State.chooseFrom]
    split
    · exact (ih _).trans (besideStore_startOp ..)
    · rfl

theorem besideStore_cancelOp (s : State) (op : StoreOp) : (s.cancelOp op).besideStore = s.besideStore := by
  unfold State.cancelOp
  split
  · exact besideStore_replyTo ..
  · rw [besideStore_replyTo, besideStore_release]
  all_goals rfl

theorem besideStore_stopLoad (s : State) : s.stopLoad.besideStore = s.besideStore := by
  unfold State.stopLoad
  split <;> rfl

theorem besideStore_cancelStore (s : State) : s.cancelStore.besideStore = s.besideStore := by
  unfold State.cancelStore
  rw [besideStore_choose, besideStore_stopLoad]
  exact foldl_keeps (P := fun t => t.besideStore = s.besideStore)
    (fun t op ht => (besideStore_cancelOp t op).trans ht) _ _ rfl

/-! ## The operations cancelled -/

theorem cancellable_iff (op : StoreOp) :
    op.cancellable = true ↔ (∃ g i label, op.kind = .save g i label) ∨ ∃ i g, op.kind = .load i g := by
  unfold StoreOp.cancellable
  cases op.kind <;> simp

theorem insertByAge_perm (op : StoreOp) (l : List StoreOp) : (insertByAge op l).Perm (op :: l) := by
  induction l with
  | nil => exact .refl _
  | cons x l ih =>
    unfold insertByAge
    split_ifs
    · exact .refl _
    · exact (ih.cons x).trans (.swap op x l)

/-- An operation with a number of its own takes its place by age. -/
theorem insertByAge_sorted {op : StoreOp} {l : List StoreOp} (hl : l.Pairwise fun x y => x.seq < y.seq)
    (hop : ∀ x ∈ l, x.seq ≠ op.seq) : (insertByAge op l).Pairwise fun x y => x.seq < y.seq := by
  induction l with
  | nil => exact List.pairwise_singleton ..
  | cons x l ih =>
    obtain ⟨hx, hl'⟩ := List.pairwise_cons.1 hl
    unfold insertByAge
    split_ifs with h
    · refine List.pairwise_cons.2 ⟨fun y hy => ?_, hl⟩
      rcases List.mem_cons.1 hy with rfl | hy
      · exact h
      · exact h.trans (hx y hy)
    · have hxop : x.seq < op.seq := lt_of_le_of_ne (Nat.not_lt.1 h) (hop x List.mem_cons_self)
      refine List.pairwise_cons.2 ⟨fun y hy => ?_, ih hl' fun y hy => hop y (List.mem_cons_of_mem x hy)⟩
      rcases List.mem_cons.1 ((insertByAge_perm op l).mem_iff.1 hy) with rfl | hy
      · exact hxop
      · exact hx y hy

theorem cancelled_of_loading_none {p : Psc} (h : p.engine.loading = none) :
    p.cancelled = p.queue.filter StoreOp.cancellable := by
  simp only [Psc.cancelled, h]

theorem cancelled_of_loading {p : Psc} {op : StoreOp} (h : p.engine.loading = some op) :
    p.cancelled = insertByAge op (p.queue.filter StoreOp.cancellable) := by
  simp only [Psc.cancelled, h]

/-- Only saves and loads are cancelled, when what is in progress is a load or no read (R172). -/
theorem cancelled_cancellable {p : Psc} (h : ∀ op, p.engine.loading = some op → op.cancellable = true) :
    ∀ op ∈ p.cancelled, op.cancellable = true := by
  intro op hop
  cases hl : p.engine.loading with
  | none =>
    rw [cancelled_of_loading_none hl] at hop
    exact (List.mem_filter.1 hop).2
  | some x =>
    rw [cancelled_of_loading hl, (insertByAge_perm ..).mem_iff] at hop
    rcases List.mem_cons.1 hop with rfl | hq
    · exact h _ hl
    · exact (List.mem_filter.1 hq).2

/-! ## The store after the cancellations -/

/-- The answers ABORTED of cancelled operations (R172). -/
abbrev abortAnswers (l : List StoreOp) (h : Hpt) : Hpt :=
  (l.filterMap (·.origin)).foldl (fun h tag => h.answer tag [Status.aborted.byte] false) h

/-- A cancelled save or load is answered ABORTED, and the store and the array stay as they are (R172). -/
theorem cancelOp_spec (s : State) {op : StoreOp} (h : op.cancellable = true) :
    (s.cancelOp op).psc = s.psc ∧ (s.cancelOp op).nv = s.nv ∧ (s.cancelOp op).hpt = abortAnswers [op] s.hpt := by
  have release (g : Fin 8) : (s.release g).psc = s.psc ∧ (s.release g).nv = s.nv ∧ (s.release g).hpt = s.hpt := by
    unfold State.release
    split_ifs <;> exact ⟨rfl, rfl, rfl⟩
  have reply (t : State) (ht : t.psc = s.psc ∧ t.nv = s.nv ∧ t.hpt = s.hpt) :
      (t.replyTo op .aborted).psc = s.psc ∧ (t.replyTo op .aborted).nv = s.nv ∧
        (t.replyTo op .aborted).hpt = abortAnswers [op] s.hpt := by
    obtain ⟨hp, hn, hh⟩ := ht
    unfold State.replyTo
    cases ho : op.origin with
    | none => exact ⟨hp, hn, by simp [abortAnswers, ho, hh]⟩
    | some tag => exact ⟨hp, hn, by simp [abortAnswers, ho, State.answer, hh]⟩
  unfold State.cancelOp
  rcases (cancellable_iff op).1 h with ⟨g, i, label, hk⟩ | ⟨i, g, hk⟩
  · rw [hk]
    exact reply (s.unpin g) ⟨rfl, rfl, rfl⟩
  · rw [hk]
    exact reply (s.release g) (release g)

theorem cancelOps_spec {l : List StoreOp} (h : ∀ op ∈ l, op.cancellable = true) (s : State) :
    (l.foldl State.cancelOp s).psc = s.psc ∧ (l.foldl State.cancelOp s).nv = s.nv ∧
      (l.foldl State.cancelOp s).hpt = abortAnswers l s.hpt := by
  induction l generalizing s with
  | nil => exact ⟨rfl, rfl, rfl⟩
  | cons op l ih =>
    obtain ⟨hp, hn, hh⟩ := cancelOp_spec s (h op List.mem_cons_self)
    obtain ⟨ihp, ihn, ihh⟩ := ih (fun x hx => h x (List.mem_cons_of_mem op hx)) (s.cancelOp op)
    refine ⟨ihp.trans hp, ihn.trans hn, ?_⟩
    rw [List.foldl_cons, ihh, hh]
    cases ho : op.origin <;> simp [abortAnswers, ho]

/-- A busy engine chooses nothing (R150). -/
theorem choose_busy {s : State} (h : s.psc.engine ≠ .idle) : s.choose = s := by
  unfold State.choose
  cases s.psc.queue.length with
  | zero => rfl
  | succ n =>
    simp only [State.chooseFrom]
    split
    · exact absurd ‹_› h
    · rfl

/-- With an empty queue there is nothing to choose (R150). -/
theorem choose_empty {s : State} (h : s.psc.queue = []) : s.choose = s := by
  unfold State.choose
  rw [h]
  rfl

/-- The store after the cut of a load in progress (R172, item 3). -/
def Psc.loadStopped (p : Psc) : Psc :=
  match p.engine with
  | .reading _ => { p with engine := .idle }
  | .readingUnderSuspend _ x =>
    { p with
      guard := true
      suspending := false
      engine := match x with | .erase w => .erasing w | .program w pages => .programming w pages }
  | _ => p

theorem stopLoad_eq (s : State) : s.stopLoad = { s with psc := s.psc.loadStopped } := by
  unfold State.stopLoad Psc.loadStopped
  cases s.psc.engine <;> rfl

/-- The store's part of the reset, where it leaves the engine nothing to choose (R172). -/
theorem cancelStore_spec {s : State} (h : ∀ op, s.psc.engine.loading = some op → op.cancellable = true) {p : Psc}
    (hp : ({ s.psc with queue := s.psc.queue.filter fun op => !op.cancellable } : Psc).loadStopped = p)
    (hc : p.engine ≠ .idle ∨ p.queue = []) :
    s.cancelStore.psc = p ∧ s.cancelStore.nv = s.nv ∧ s.cancelStore.hpt = abortAnswers s.psc.cancelled s.hpt := by
  obtain ⟨hpsc, hnv, hhpt⟩ := cancelOps_spec (cancelled_cancellable h)
    (s.setQueue (s.psc.queue.filter fun op => !op.cancellable))
  unfold State.cancelStore
  generalize s.psc.cancelled.foldl State.cancelOp _ = t at *
  have stopped : t.stopLoad = { t with psc := p } := by rw [stopLoad_eq, hpsc]; exact hp ▸ rfl
  have chosen : t.stopLoad.choose = { t with psc := p } := by
    rw [stopped]
    exact hc.elim (fun h => choose_busy h) fun h => choose_empty h
  simp only [chosen, true_and]
  exact ⟨hnv, hhpt⟩

/-! ## The whole reset -/

/-- Settles O60: the lanes' part by the reports, the store's part by what it leaves alone, then the engine's states. -/
theorem sequencerResetEmptiesGroups : Obligations.SequencerResetEmptiesGroups := by
  intro s
  have cut := cutLanes_outside s
  simp only [State.outside, Prod.mk.injEq] at cut
  obtain ⟨hpins, hpsc, hsuc, hnv, -⟩ := cut
  have store := besideStore_cancelStore s.cutLanes
  simp only [State.besideStore, Prod.mk.injEq] at store
  obtain ⟨hlanes, htgt, hsau, htlu, hsuc', hpins', hlocks⟩ := store
  have beside := cutLanes_besideLanes s
  simp only [State.besideReports, Prod.mk.injEq] at beside
  obtain ⟨htgt', hline0, hline1⟩ := beside
  have storeEnds {p : Psc} (h : ∀ op, s.psc.engine.loading = some op → op.cancellable = true)
      (hp : ({ s.psc with queue := s.psc.queue.filter fun op => !op.cancellable } : Psc).loadStopped = p)
      (hc : p.engine ≠ .idle ∨ p.queue = []) :
      s.cutLanes.cancelStore.psc = p ∧ s.cutLanes.cancelStore.nv = s.nv ∧
        s.cutLanes.cancelStore.hpt = abortAnswers s.psc.cancelled s.cutLanes.hpt := by
    rw [← hpsc] at h hp ⊢
    rw [← hnv]
    exact cancelStore_spec h hp hc
  have emptied (l : Fin 4) :
      s.cutLanes.cancelStore.lane l = ⟨(s.lane l).settings, [], none, (s.cutLanes.lane l).bus⟩ := by
    obtain ⟨hf, hq⟩ := Lane.jobs_eq_nil (cutLanes_jobs s l)
    rw [State.lane, hlanes, ← cutLanes_settings s l, ← hf, ← hq]
    rfl
  rw [← hsau] at hline0 hline1
  generalize s.cutLanes.cancelStore = u at *
  refine ⟨fun h ha => taking_request ha 0x72#8 _, rfl, fun g => ?account, rfl, fun line => ?line, fun l => ?lane,
    htgt.trans htgt', htlu, hsuc'.trans hsuc, hpins'.trans hpins, hlocks.trans (congrArg Nv.locks hnv),
    cancellable_iff, cancelled_of_loading_none, fun op hop => ⟨?perm, ?sorted⟩, ?busy, ?suspended, ?reading⟩
  case account => simp [State.account, State.resetGroups, Account.reset]
  case line =>
    cases line with
    | sync0 => exact hline0
    | sync1 => exact hline1
  case lane => exact emptied l
  case perm =>
    rw [cancelled_of_loading hop]
    exact insertByAge_perm op _
  case sorted =>
    intro hs hne
    rw [cancelled_of_loading hop]
    exact insertByAge_sorted (hs.filter _) fun x hx => hne x (List.mem_filter.1 hx).1
  case busy =>
    rintro (⟨w, he⟩ | ⟨w, pages, he⟩ | ⟨op, i, he⟩)
    all_goals
      refine storeEnds (fun op hop => ?_) ?_ (.inl ?_)
      · simp [he, Engine.loading] at hop
      · simp [Psc.loadStopped, he]
      · simp [he]
  case suspended =>
    intro op x i g he hk
    refine storeEnds (fun op' hop => ?_) ?_ (.inl ?_)
    · simp only [he, Engine.loading, Option.some.injEq] at hop
      exact (cancellable_iff op').2 (.inr ⟨i, g, hop ▸ hk⟩)
    · cases x <;> simp only [Psc.loadStopped, he]
    · cases x <;> simp
  case reading =>
    intro op i g he hk hkept
    refine storeEnds (fun op' hop => ?_) ?_ (.inr rfl)
    · simp only [he, Engine.loading, Option.some.injEq] at hop
      exact (cancellable_iff op').2 (.inr ⟨i, g, hop ▸ hk⟩)
    · simp only [Psc.loadStopped, he, hkept]

end Sys2Proof.Machine
end

section
/-! SUPPORT. The target requests (R30 to R34): which items are in range, which address and timeout fit a lane's kind, what
`in use` means, and the statement about TARGET.SET, TARGET.CLEAR and TARGET.QUERY. -/

namespace Sys2Proof.Machine

/-! ## Items in range -/

theorem byte_eq_iff (b : Byte) (n : Nat) (hn : n < 256) : b = BitVec.ofNat 8 n ↔ b.toNat = n := by
  rw [← BitVec.toNat_inj, BitVec.toNat_ofNat, Nat.mod_eq_of_lt hn]

theorem inRange_isSome (n : Nat) (b : Byte) : (inRange n b).isSome = true ↔ b.toNat < n := by
  unfold inRange
  split_ifs with h <;> simp [h]

theorem flagOf_isSome (b : Byte) : (flagOf b).isSome = true ↔ b.toNat ≤ 1 := by
  have h0 := byte_eq_iff b 0 (by decide)
  have h1 := byte_eq_iff b 1 (by decide)
  unfold flagOf
  split_ifs with hb hb'
  · simp [h0.1 hb]
  · simp [h1.1 hb']
  · simp only [Option.isSome_none, Bool.false_eq_true, false_iff]
    have := mt h0.2 hb
    have := mt h1.2 hb'
    omega

theorem addressOf_isSome (b : Byte) :
    (addressOf b).isSome = true ↔ b.toNat ≤ 1 ∨ (0x08 ≤ b.toNat ∧ b.toNat ≤ 0x77) := by
  have h0 := byte_eq_iff b 0 (by decide)
  have h1 := byte_eq_iff b 1 (by decide)
  unfold addressOf
  split_ifs with hb hb' hr
  · simp [h0.1 hb]
  · simp [h1.1 hb']
  · simp [hr]
  · simp only [Option.isSome_none, Bool.false_eq_true, false_iff]
    have := mt h0.2 hb
    have := mt h1.2 hb'
    omega

theorem regWidthOf_isSome (b : Byte) : (regWidthOf b).isSome = true ↔ b = 1#8 ∨ b = 2#8 := by
  unfold regWidthOf
  split_ifs with h h'
  · simp [h]
  · simp [h']
  · simp [h, h']

theorem dataWidthOf_isSome (b : Byte) : (dataWidthOf b).isSome = true ↔ b = 1#8 ∨ b = 2#8 ∨ b = 4#8 := by
  unfold dataWidthOf
  split_ifs with h h' h''
  · simp [h]
  · simp [h']
  · simp [h'']
  · simp [h, h', h'']

/-- A chain of checks passes when the first passes and the rest does. -/
theorem isSome_bind_iff {α β : Type} (o : Option α) (f : α → Option β) {p : Prop} (hf : ∀ a, (f a).isSome = true ↔ p) :
    (o.bind f).isSome = true ↔ o.isSome = true ∧ p := by
  cases o with
  | none => simp
  | some a => simp [hf]

/-- The items of a TARGET.SET that are in range, whatever the state (R30, R200). -/
theorem targetCfgOf_isSome (r : RawTarget) :
    (targetCfgOf r).isSome = true ↔
      r.enabled.toNat ≤ 1 ∧ r.lane.toNat ≤ 3 ∧
      (r.address.toNat ≤ 1 ∨ (0x08 ≤ r.address.toNat ∧ r.address.toNat ≤ 0x77)) ∧
      (r.regWidth = 1#8 ∨ r.regWidth = 2#8) ∧ (r.dataWidth = 1#8 ∨ r.dataWidth = 2#8 ∨ r.dataWidth = 4#8) ∧
      r.autoInc.toNat ≤ 1 ∧ r.verify.toNat ≤ 1 ∧ r.retries.toNat ≤ 3 := by
  rw [← flagOf_isSome, ← Nat.lt_succ_iff (n := 3), ← inRange_isSome, ← addressOf_isSome, ← regWidthOf_isSome,
    ← dataWidthOf_isSome, ← flagOf_isSome, ← flagOf_isSome, ← Nat.lt_succ_iff (m := r.retries.toNat), ← inRange_isSome]
  refine isSome_bind_iff _ _ fun _ => isSome_bind_iff _ _ fun _ => isSome_bind_iff _ _ fun _ =>
    isSome_bind_iff _ _ fun _ => isSome_bind_iff _ _ fun _ => isSome_bind_iff _ _ fun _ =>
    isSome_bind_iff _ _ fun _ => ?_
  cases inRange 4 r.retries <;> simp

/-- Which address form and timeout fit a lane of either kind (R32). -/
theorem fitsKind_iff (c : TargetCfg) (k : LaneSettings) :
    c.fitsKind k = true ↔
      (k.isI2c = true ∧ c.address ≠ .selectA ∧ c.address ≠ .selectB ∧ c.timeout ≠ none) ∨
      (k.isI2c = false ∧ (c.address = .selectA ∨ c.address = .selectB) ∧ c.timeout = none) := by
  unfold TargetCfg.fitsKind
  cases k <;> cases c.address <;> cases c.timeout <;> simp [LaneSettings.isI2c]

@[simp] theorem regWidthOf_bytes (w : RegWidth) : regWidthOf (natByte w.bytes) = some w := by cases w <;> rfl
@[simp] theorem dataWidthOf_bytes (w : DataWidth) : dataWidthOf (natByte w.bytes) = some w := by cases w <;> rfl

/-- The byte of an address in range reads back as the address (R200). -/
theorem addressOf_byte {a : Address} (h : ∀ b, a = .i2c b → 0x08 ≤ b.toNat ∧ b.toNat ≤ 0x77) :
    addressOf a.byte = some a := by
  cases a with
  | selectA => rfl
  | selectB => rfl
  | i2c b =>
    have hb := h b rfl
    have h0 := mt (byte_eq_iff b 0 (by decide)).1 (by omega)
    have h1 := mt (byte_eq_iff b 1 (by decide)).1 (by omega)
    simp [addressOf, Address.byte, h0, h1, hb]

/-- The nine bytes of a configuration in range read back as the configuration (R30). -/
theorem targetCfgOf_bytes {c : TargetCfg} (h : c.inRange = true) : targetCfgOf (rawTargetAt c.bytes 0) = some c := by
  obtain ⟨enabled, lane, address, regWidth, dataWidth, autoInc, verify, retries, timeout⟩ := c
  simp only [TargetCfg.inRange, Bool.and_eq_true, bne_iff_ne, ne_eq] at h
  obtain ⟨ha, ht⟩ := h
  have haddr : addressOf address.byte = some address := addressOf_byte fun b hb => by
    subst hb
    simpa using ha
  have htime : (if timeout.getD 0#8 = 0#8 then none else some (timeout.getD 0#8)) = timeout := by
    cases timeout with
    | none => rfl
    | some b => simpa using ht
  simp [targetCfgOf, rawTargetAt, TargetCfg.bytes, byteAt, haddr, htime]

/-! ## Targets in use (R31) -/

theorem claims_iff (x : GroupState) : x.claims = true ↔ x = .armed ∨ x = .launching := by
  cases x <;> simp [GroupState.claims]

theorem mem_targets (c : LoopCfg) (t : Fin 16) :
    c.targets.contains t = true ↔
      c.measTarget = t ∨ c.outTarget = t ∨ ∃ f, c.follower = some f ∧ f.target = t := by
  unfold LoopCfg.targets
  cases c.follower <;> simp [eq_comm (a := t)]

/-- A target is in use by a group ARMED or LAUNCHING with a record of it, or by a running loop that names it (R31). -/
theorem inUse_iff (s : State) (t : Fin 16) :
    s.inUse t = true ↔
      (∃ g, ((s.group g).state = .armed ∨ (s.group g).state = .launching) ∧
        ∃ r ∈ (s.group g).records, r.target = some t) ∨
      (∃ n, (s.loop n).state.running = true ∧
        ((s.loop n).cfg.measTarget = t ∨ (s.loop n).cfg.outTarget = t ∨
          ∃ f, (s.loop n).cfg.follower = some f ∧ f.target = t)) := by
  simp only [State.inUse, Bool.or_eq_true, List.any_eq_true, Bool.and_eq_true, claims_iff, mem_targets, upTo,
    List.mem_finRange, true_and, beq_iff_eq]

/-- Another enabled entry has the lane and the address (R32, check 4). -/
theorem addressTaken_iff (s : State) (t : Fin 16) (c : TargetCfg) :
    s.addressTaken t c = true ↔
      ∃ u, u ≠ t ∧ (s.target u).cfg.enabled = true ∧ (s.target u).cfg.lane = c.lane ∧
        (s.target u).cfg.address = c.address := by
  simp only [State.addressTaken, List.any_eq_true, Bool.and_eq_true, upTo, List.mem_finRange, true_and, beq_iff_eq,
    bne_iff_ne, ne_eq, and_assoc]

/-! ## The requests (R32 to R34) -/

@[simp] theorem inUse_accepted (s : State) (h : ReqHead) (c : Byte) (t : Fin 16) :
    (s.accepted h c).inUse t = s.inUse t := rfl

@[simp] theorem addressTaken_accepted (s : State) (h : ReqHead) (c : Byte) (t : Fin 16) (x : TargetCfg) :
    (s.accepted h c).addressTaken t x = s.addressTaken t x := rfl

@[simp] theorem lane_accepted (s : State) (h : ReqHead) (c : Byte) (l : Fin 4) : (s.accepted h c).lane l = s.lane l := rfl

@[simp] theorem target_accepted (s : State) (h : ReqHead) (c : Byte) (t : Fin 16) :
    (s.accepted h c).target t = s.target t := rfl

/-- Settles O27: the checks of TARGET.SET one after another, then what each check says. -/
theorem targetRequests : Obligations.TargetRequests := by
  refine ⟨fun s h t ha => ⟨fun r => ⟨fun hu => ?inUse, fun hu => ⟨fun hc => ?range, fun c hc =>
    ⟨fun hbad => ?clash, fun hk ho => ?taken⟩⟩⟩, ?clear, ?query, inUse_iff s t⟩, targetCfgOf_isSome, fitsKind_iff,
    fun c => targetCfgOf_bytes⟩
  case inUse =>
    refine taking_answered ha ?_
    rw [ownTargetSet, inRange_natByte_16]
    simp [hu]
  case range =>
    refine taking_answered ha ?_
    rw [ownTargetSet, inRange_natByte_16]
    simp [hu, hc]
  case clash =>
    refine taking_answered ha ?_
    rw [ownTargetSet, inRange_natByte_16]
    rcases hbad with hk | ⟨he, ho⟩
    · simp [hu, hc, hk]
    · simp [hu, hc, he, (addressTaken_iff s t c).2 ho]
  case taken =>
    refine request_replied ha 0x20#8 (fun x => x.setTarget t ⟨c, none⟩) .ok [] ?_ rfl rfl
    have free : (c.enabled && s.addressTaken t c) = false := by
      rw [Bool.and_eq_false_iff, ← Bool.not_eq_true (s.addressTaken t c), addressTaken_iff]
      refine ho.imp_right fun h => ?_
      rintro ⟨u, hu, he, hl, hd⟩
      exact h u hu he hl hd
    rw [ownTargetSet, inRange_natByte_16]
    simp [hu, hc, hk, free]
  case clear =>
    refine request_replied ha 0x22#8 (fun x => x.setTarget t { s.target t with fault := none }) .ok [] ?_ rfl rfl
    rw [ownTargetClear, inRange_natByte_16]
    rfl
  case query =>
    refine taking_answered ha ?_
    rw [ownTargetQuery, inRange_natByte_16]
    rfl

end Sys2Proof.Machine
end

section
/-! SUPPORT. TARGET.READ, LANE.SET and LANE.QUERY (R36, R37, R54): the lane settings that are in range, and the pins of a
lane at rest (R38). -/

namespace Sys2Proof.Machine

/-! ## Lane settings (R35, R36) -/

/-- The mode items of an SPI lane (R36). -/
def spiModeOf (b : Byte) : Option SpiMode := if b = 0#8 then some .mode0 else if b = 3#8 then some .mode3 else none

/-- The speed items of an SPI lane (R36). -/
def spiSpeedOf (x : Half) : Option SpiSpeed :=
  if x = 1000#16 then some .mhz1 else if x = 5000#16 then some .mhz5 else if x = 10000#16 then some .mhz10
  else if x = 25000#16 then some .mhz25 else none

/-- The speed items of an I2C lane (R36). -/
def i2cSpeedOf (x : Half) : Option I2cSpeed :=
  if x = 100#16 then some .khz100 else if x = 400#16 then some .khz400 else if x = 1000#16 then some .khz1000 else none

theorem spiModeOf_eq_some (b : Byte) (m : SpiMode) : spiModeOf b = some m ↔ b = m.byte := by
  unfold spiModeOf
  cases m <;> split_ifs with h h' <;> simp_all [SpiMode.byte]

theorem spiSpeedOf_eq_some (x : Half) (v : SpiSpeed) : spiSpeedOf x = some v ↔ x = v.khz := by
  unfold spiSpeedOf
  cases v <;> split_ifs <;> simp_all [SpiSpeed.khz]

theorem i2cSpeedOf_eq_some (x : Half) (v : I2cSpeed) : i2cSpeedOf x = some v ↔ x = v.khz := by
  unfold i2cSpeedOf
  cases v <;> split_ifs <;> simp_all [I2cSpeed.khz]

/-- The lane items kind by kind. -/
theorem laneSettingsOf_eq (r : RawLane) :
    laneSettingsOf r =
      if r.kind = 0#8 ∧ r.modePresent = 0#8 then (i2cSpeedOf r.speed).map .i2c
      else if r.kind = 1#8 ∧ r.modePresent = 1#8 then
        (spiModeOf r.mode).bind fun m => (spiSpeedOf r.speed).map fun v => .spi v m
      else none := by
  unfold laneSettingsOf
  congr 1
  · unfold i2cSpeedOf
    split_ifs <;> rfl
  · congr 1
    unfold spiModeOf spiSpeedOf
    split_ifs <;> rfl

/-- The lane items that give an I2C setting, and those that give an SPI one (R36). -/
theorem laneSettingsOf_eq_some (r : RawLane) (c : LaneSettings) :
    laneSettingsOf r = some c ↔
      match c with
      | .i2c v => r.kind = 0#8 ∧ r.modePresent = 0#8 ∧ r.speed = v.khz
      | .spi v m => r.kind = 1#8 ∧ r.modePresent = 1#8 ∧ r.mode = m.byte ∧ r.speed = v.khz := by
  have apart : ¬ (0#8 = (1#8 : Byte)) := by decide
  rw [laneSettingsOf_eq]
  cases c with
  | i2c v =>
    simp only [← i2cSpeedOf_eq_some]
    split_ifs with h h'
    · simp [h]
    · cases spiModeOf r.mode <;> simp [h'.1]
    · simpa using fun hk hp => absurd ⟨hk, hp⟩ h
  | spi v m =>
    simp only [← spiSpeedOf_eq_some, ← spiModeOf_eq_some]
    split_ifs with h h'
    · simp [h.1]
    · cases spiModeOf r.mode <;> simp [h', and_comm]
    · simpa using fun hk hp => absurd ⟨hk, hp⟩ h'

/-- The lane items in range (R36). -/
theorem laneSettingsOf_isSome (r : RawLane) :
    (laneSettingsOf r).isSome = true ↔
      (r.kind = 0#8 ∧ r.modePresent = 0#8 ∧ (r.speed = 100#16 ∨ r.speed = 400#16 ∨ r.speed = 1000#16)) ∨
      (r.kind = 1#8 ∧ r.modePresent = 1#8 ∧ (r.mode = 0#8 ∨ r.mode = 3#8) ∧
        (r.speed = 1000#16 ∨ r.speed = 5000#16 ∨ r.speed = 10000#16 ∨ r.speed = 25000#16)) := by
  rw [Option.isSome_iff_exists]
  simp only [laneSettingsOf_eq_some]
  constructor
  · rintro ⟨v | ⟨v, m⟩, h⟩
    · refine .inl ⟨h.1, h.2.1, ?_⟩
      cases v <;> simp [h.2.2, I2cSpeed.khz]
    · obtain ⟨hk, hp, hm, hv⟩ := h
      refine .inr ⟨hk, hp, ?_, ?_⟩
      · cases m <;> simp [hm, SpiMode.byte]
      · cases v <;> simp [hv, SpiSpeed.khz]
  · rintro (⟨hk, hp, hv⟩ | ⟨hk, hp, hm, hv⟩)
    · have speed : ∃ v : I2cSpeed, r.speed = v.khz := by
        rcases hv with hv | hv | hv
        exacts [⟨.khz100, hv⟩, ⟨.khz400, hv⟩, ⟨.khz1000, hv⟩]
      obtain ⟨v, hv⟩ := speed
      exact ⟨.i2c v, hk, hp, hv⟩
    · have speed : ∃ v : SpiSpeed, r.speed = v.khz := by
        rcases hv with hv | hv | hv | hv
        exacts [⟨.mhz1, hv⟩, ⟨.mhz5, hv⟩, ⟨.mhz10, hv⟩, ⟨.mhz25, hv⟩]
      have mode : ∃ m : SpiMode, r.mode = m.byte := by
        rcases hm with hm | hm
        exacts [⟨.mode0, hm⟩, ⟨.mode3, hm⟩]
      obtain ⟨v, hv⟩ := speed
      obtain ⟨m, hm⟩ := mode
      exact ⟨.spi v m, hk, hp, hm, hv⟩

/-- Settings in their five bytes are the items they were taken from, the mode of an I2C lane apart (R200, R204). -/
theorem laneSettings_bytes {r : RawLane} {c : LaneSettings} (h : laneSettingsOf r = some c) :
    c.bytes = [r.kind] ++ halfBytes r.speed ++ (if r.kind = 0#8 then [0#8, 0#8] else [1#8, r.mode]) := by
  rw [laneSettingsOf_eq_some] at h
  cases c with
  | i2c v =>
    obtain ⟨hk, -, hv⟩ := h
    simp [LaneSettings.bytes, hk, hv]
  | spi v m =>
    obtain ⟨hk, -, hm, hv⟩ := h
    simp [LaneSettings.bytes, hk, hm, hv]

/-- The items of settings read back as the settings. -/
theorem laneSettingsOf_bytes (c : LaneSettings) : laneSettingsOf (rawLaneAt c.bytes 0) = some c := by
  cases c with
  | i2c v => cases v <;> rfl
  | spi v m => cases v <;> cases m <;> rfl

/-- The pins of a lane with no transaction in flight (R38). -/
theorem idlePins_spec (c : LaneSettings) :
    (c.isI2c = true → c.idlePins = Vector.replicate 5 .released) ∧
    (∀ x, c = .spi x .mode0 → c.idlePins.toList = [.low, .low, .input, .high, .high]) ∧
    ∀ x, c = .spi x .mode3 → c.idlePins.toList = [.high, .low, .input, .high, .high] := by
  refine ⟨fun h => ?_, ?_, ?_⟩
  · cases c with
    | i2c v => rfl
    | spi v m => cases h
  · rintro x rfl; rfl
  · rintro x rfl; rfl

theorem sameKind_eq (c k : LaneSettings) : c.sameKind k = (c.isI2c == k.isI2c) := by
  cases c <;> cases k <;> rfl

/-- An enabled target names the lane (R36, check 4). -/
theorem laneNamed_iff (s : State) (l : Fin 4) :
    s.laneNamed l = true ↔ ∃ t, (s.target t).cfg.enabled = true ∧ (s.target t).cfg.lane = l := by
  simp only [State.laneNamed, List.any_eq_true, Bool.and_eq_true, upTo, List.mem_finRange, true_and, beq_iff_eq]

@[simp] theorem laneNamed_accepted (s : State) (h : ReqHead) (c : Byte) (l : Fin 4) :
    (s.accepted h c).laneNamed l = s.laneNamed l := rfl

/-! ## The requests -/

/-- TARGET.READ check by check (R54). -/
theorem targetRead_spec {s : State} {h : ReqHead} (ha : s.admits h) (t : Fin 16) (reg : Half) :
    let e := s.target t
    (e.cfg.enabled = false ∨ e.cfg.regWidth.last < reg.toNat →
      exec (.targetRead h (natByte t.val) reg) s = .next (s.replied h 0x23#8 .badArg [])) ∧
    (e.cfg.enabled = true → reg.toNat ≤ e.cfg.regWidth.last →
      (e.fault ≠ none →
        exec (.targetRead h (natByte t.val) reg) s = .next (s.replied h 0x23#8 .targetFaulted [])) ∧
      (e.fault = none →
        exec (.targetRead h (natByte t.val) reg) s =
          .next ((((s.accepted h 0x23#8).appendJob e.cfg.lane (.read h.tag t reg)).settleLanes).arbitrated))) := by
  refine ⟨fun hbad => ?range, fun he hr => ⟨fun hf => ?faulted, fun hf => ?taken⟩⟩
  case range =>
    refine taking_answered ha ?_
    rw [ownTargetRead, inRange_natByte_16]
    rcases hbad with he | hr
    · simp [he]
    · simp [RegWidth.admits, Nat.not_le.2 hr]
  case faulted =>
    refine taking_answered ha ?_
    rw [ownTargetRead, inRange_natByte_16]
    simp [he, RegWidth.admits, hr, Option.isSome_iff_ne_none, hf]
  case taken =>
    refine (taking_request ha 0x23#8 _).trans ?_
    rw [ownTargetRead, inRange_natByte_16]
    simp [he, RegWidth.admits, hr, hf]

/-- LANE.SET check by check (R36). -/
theorem laneSet_spec {s : State} {h : ReqHead} (ha : s.admits h) (l : Fin 4) {r : RawLane} {c : LaneSettings}
    (hc : laneSettingsOf r = some c) :
    let x := s.lane l
    (x.flight ≠ none ∨ x.queue ≠ [] →
      exec (.laneSet h (natByte l.val) r) s = .next (s.replied h 0x24#8 .laneBusy [])) ∧
    (x.flight = none → x.queue = [] →
      (c.isI2c ≠ x.settings.isI2c → (∃ t, (s.target t).cfg.enabled = true ∧ (s.target t).cfg.lane = l) →
        exec (.laneSet h (natByte l.val) r) s = .next (s.replied h 0x24#8 .targetInUse [])) ∧
      ((c.isI2c = x.settings.isI2c ∨ ∀ t, (s.target t).cfg.enabled = true → (s.target t).cfg.lane ≠ l) →
        exec (.laneSet h (natByte l.val) r) s =
          .next ((s.setLane l { x with settings := c }).replied h 0x24#8 .ok []))) := by
  refine ⟨fun hbusy => ?busy, fun hf hq => ⟨fun hk hn => ?named, fun hok => ?taken⟩⟩
  case busy =>
    refine taking_answered ha ?_
    rw [ownLaneSet, inRange_natByte_4]
    rcases hbusy with hf | hq
    · simp [hc, Option.isSome_iff_ne_none, hf]
    · simp [hc, hq]
  case named =>
    refine taking_answered ha ?_
    rw [ownLaneSet, inRange_natByte_4]
    simp [hc, hf, hq, sameKind_eq, hk, (laneNamed_iff s l).2 hn]
  case taken =>
    refine request_replied ha 0x24#8 (fun t => t.setLane l { s.lane l with settings := c }) .ok [] ?_ rfl rfl
    have free : (!c.sameKind (s.lane l).settings && s.laneNamed l) = false := by
      rw [Bool.and_eq_false_iff, ← Bool.not_eq_true (s.laneNamed l), laneNamed_iff]
      refine hok.imp (fun hk => by simp [sameKind_eq, hk]) fun hn => ?_
      rintro ⟨t, he, hl⟩
      exact hn t he hl
    rw [ownLaneSet, inRange_natByte_4]
    simp [hc, hf, hq, free]

/-- Settles O28: request by request. -/
theorem readAndLaneRequests : Obligations.ReadAndLaneRequests := by
  refine ⟨fun s h t reg ha => targetRead_spec ha t reg, laneSettingsOf_isSome, fun r c => laneSettings_bytes,
    laneSettingsOf_bytes, idlePins_spec, fun s h l ha => ⟨fun r c => laneSet_spec ha l, ?_⟩⟩
  refine taking_answered ha ?_
  rw [ownLaneQuery, inRange_natByte_4]
  rfl

end Sys2Proof.Machine
end

section
/-! SUPPORT. The dispatch check at a lane head (R41 to R43, R55). -/

namespace Sys2Proof.Machine

/-! ## A job that names a target -/

/-- A job that names a target and is no stale write meets the check of its entry (R41, R43, R55). -/
theorem dispatch_of_target {s : State} {l : Fin 4} {j : Job} {t : Fin 16} (hj : j.target = some t)
    (hs : s.isStale j = false) : s.dispatch l j = s.dispatchTo l j t := by
  cases j with
  | record g i r =>
    cases r with
    | single x reg v => cases hj; rfl
    | run x reg vs => cases hj; rfl
    | scatter x reg st vs => cases hj; rfl
    | poll x reg m e a p => cases hj; rfl
    | wait x d => cases hj
    | setpoint n v => cases hj
  | loop n k x reg v =>
    cases hj
    simp [State.dispatch, hs]
  | read tag x reg => cases hj; rfl

/-- The check of a job against its entry, in the words of R41, R43 and R55. -/
theorem entryFits_iff (j : Job) (c : TargetCfg) (l : Fin 4) :
    j.entryFits c l = true ↔
      c.enabled = true ∧ c.lane = l ∧
        match j with
        | .record _ _ r => r.fits c = true
        | .loop _ k _ reg v =>
          reg.toNat ≤ c.regWidth.last ∧ (k = .measure ∨ v.toNat < 2 ^ (8 * c.dataWidth.bytes))
        | .read _ _ reg => reg.toNat ≤ c.regWidth.last := by
  cases j <;> simp [Job.entryFits, RegWidth.admits, DataWidth.admits, and_assoc]

section
variable {s : State} {l : Fin 4} {j : Job} {t : Fin 16}

theorem dispatchTo_unfit (h : j.entryFits (s.target t).cfg l = false) : s.dispatchTo l j t = s.turnedAway j := by
  simp [State.dispatchTo, h]

theorem dispatchTo_faulted (h : j.entryFits (s.target t).cfg l = true) (hf : (s.target t).fault ≠ none) :
    s.dispatchTo l j t = s.skipped j := by
  simp [State.dispatchTo, h, Option.isSome_iff_ne_none, hf]

theorem dispatchTo_fit (h : j.entryFits (s.target t).cfg l = true) (hf : (s.target t).fault = none) :
    s.dispatchTo l j t = s.startJob l j (s.target t).cfg := by
  simp [State.dispatchTo, h, hf]

end

/-! ## The three ways of a check -/

/-- What a job turned away comes to (R41, R43, R55). -/
theorem turnedAway_record (s : State) (g : Fin 8) (i : Nat) {r : Record}
    (h : ∀ t reg st vs, r ≠ .scatter t reg st vs) :
    s.turnedAway (.record g i r) = s.recordEnd g i (.failed .badTarget none) := by
  cases r with
  | scatter t reg st vs => exact absurd rfl (h t reg st vs)
  | _ => rfl

/-- A SCATTER turned away shows one of its items (R85; log entry 34). -/
theorem turnedAway_scatter (s : State) (g : Fin 8) (i : Nat) (t : Fin 16) (reg : Half) (st : Stride) (vs : List Val) :
    ∃ item : Nat, (vs ≠ [] → item < vs.length) ∧
      s.turnedAway (.record g i (.scatter t reg st vs)) = (s.recordEnd g i (.failed .badTarget (some item))).drawn :=
  ⟨Config.turnedAwayItem s.fresh % vs.length, fun h => Nat.mod_lt _ (List.length_pos_of_ne_nil h), rfl⟩

theorem startAttempt_reads (s : State) (l : Fin 4) {f : Flight} (h : f.job.reads = true) :
    s.startAttempt l f = s.setFlight l (some { f with
      part := .read, wire := readWire (s.lane l).settings f.cfg (f.job.register f.item) 1 }) := by
  simp [State.startAttempt, h]

theorem startAttempt_writes (s : State) (l : Fin 4) {f : Flight} (h : f.job.reads = false) :
    s.startAttempt l f = s.setFlight l (some { f with
      part := .write
      wire := writeWire (s.lane l).settings f.cfg (f.job.register f.item) (f.job.written f.item) }) := by
  simp [State.startAttempt, h]

/-- Settles O29: a job that names a target by the way its check goes, then the others. -/
theorem dispatchCheck : Obligations.DispatchCheck := by
  intro s l
  refine ⟨fun j t hj hstale => ?_, fun n k t reg v hk hstale => ?stale, fun g i lane d => ⟨_, rfl, rfl, rfl, rfl⟩,
    fun g i n v => rfl⟩
  case stale => simp [State.dispatch, State.isStale, hstale, hk]
  have check := entryFits_iff j (s.target t).cfg l
  rw [dispatch_of_target hj hstale]
  refine ⟨fun hfits => ?_, fun hfits hf => ?_, fun hfits hf => ?_⟩
  · rw [dispatchTo_unfit (Bool.eq_false_iff.2 (mt check.1 hfits))]
    refine ⟨?_, ?_, ?_, ?_⟩
    · rintro g i r rfl hr
      exact turnedAway_record s g i hr
    · rintro g i t' reg st vs rfl
      exact turnedAway_scatter s g i t' reg st vs
    · rintro n k t' reg v rfl
      rfl
    · rintro tag t' reg rfl
      rfl
  · rw [dispatchTo_faulted (check.2 hfits) hf]
    refine ⟨?_, ?_, ?_⟩
    · rintro g i r rfl
      rfl
    · rintro n k t' reg v rfl
      rfl
    · rintro tag t' reg rfl
      rfl
  · rw [dispatchTo_fit (check.2 hfits) hf]
    exact ⟨fun hr => startAttempt_reads s l hr, fun hr => startAttempt_writes s l hr⟩

end Sys2Proof.Machine
end

section
/-! SUPPORT. What a transaction is on the bus, and what its end with ACK leads to (R44 to R47, R53). -/

namespace Sys2Proof.Machine

/-! ## Bytes on the bus (R44, R45) -/

/-- The last `n` bytes of a number, most significant first. -/
def bigEndian (n v : Nat) : List Byte := (List.range n).reverse.map fun i => natByte (v / 256 ^ i)

/-- A byte of a word is the word shifted down. -/
theorem setWidth_ushiftRight {w : Nat} (x : BitVec w) (i : Nat) :
    (x >>> (8 * i)).setWidth 8 = natByte (x.toNat / 256 ^ i) := by
  apply BitVec.eq_of_toNat_eq
  rw [BitVec.toNat_setWidth, BitVec.toNat_ushiftRight, natByte, BitVec.toNat_ofNat, Nat.shiftRight_eq_div_pow,
    Nat.pow_mul]

theorem DataWidth.busBytes_eq (w : DataWidth) (v : Val) : w.busBytes v = bigEndian w.bytes v.toNat := by
  have b0 := setWidth_ushiftRight v 0
  have b1 := setWidth_ushiftRight v 1
  have b2 := setWidth_ushiftRight v 2
  have b3 := setWidth_ushiftRight v 3
  simp only [Nat.mul_zero, BitVec.ushiftRight_zero] at b0
  cases w <;> simp [DataWidth.busBytes, DataWidth.bytes, bigEndian, List.range_succ, b0, b1, b2, b3]

theorem RegWidth.busBytes_eq (w : RegWidth) (r : Half) : w.busBytes r = bigEndian w.bytes r.toNat := by
  have b0 := setWidth_ushiftRight r 0
  have b1 := setWidth_ushiftRight r 1
  simp only [Nat.mul_zero, BitVec.ushiftRight_zero] at b0
  cases w <;> simp [RegWidth.busBytes, RegWidth.bytes, bigEndian, List.range_succ, b0, b1]

/-- One more byte read, while the value has room for it. -/
theorem busValue_step (v : Val) (b : Byte) (h : v.toNat < 2 ^ 24) :
    ((v <<< 8) ||| b.setWidth 32).toNat = 256 * v.toNat + b.toNat := by
  have hb := b.isLt
  rw [BitVec.toNat_or, BitVec.toNat_shiftLeft, BitVec.toNat_setWidth, Nat.mod_eq_of_lt (by omega : b.toNat < 2 ^ 32),
    Nat.shiftLeft_eq, Nat.mod_eq_of_lt (by omega), ← Nat.shiftLeft_eq, ← Nat.shiftLeft_add_eq_or_of_lt (by omega),
    Nat.shiftLeft_eq, Nat.mul_comm]

/-- Bytes read one by one make the number they spell, most significant first (R44). -/
theorem busValue_from (l : List Byte) (v : Val) (k : Nat) (hk : l.length + k ≤ 4) (hv : v.toNat < 256 ^ k) :
    (l.foldl (fun (v : Val) b => (v <<< 8) ||| b.setWidth 32) v).toNat =
      l.foldl (fun n b => 256 * n + b.toNat) v.toNat := by
  induction l generalizing v k with
  | nil => rfl
  | cons b l ih =>
    rw [List.length_cons] at hk
    have h24 : v.toNat < 2 ^ 24 :=
      Nat.lt_of_lt_of_le hv (Nat.le_trans (Nat.pow_le_pow_right (by decide) (by omega : k ≤ 3)) (by decide))
    have step := busValue_step v b h24
    have hb := b.isLt
    rw [List.foldl_cons, List.foldl_cons, ← step]
    exact ih _ (k + 1) (by omega) (by rw [step, Nat.pow_succ]; omega)

theorem busValue_toNat (data : List Byte) (h : data.length ≤ 4) :
    (busValue data).toNat = data.foldl (fun n b => 256 * n + b.toNat) 0 :=
  busValue_from data 0#32 0 h (by decide)

/-- The address byte of a write (R44). -/
theorem addressByte_write (a : Byte) : a <<< 1 = natByte (2 * a.toNat) := by
  apply BitVec.eq_of_toNat_eq
  rw [BitVec.toNat_shiftLeft, natByte, BitVec.toNat_ofNat, Nat.shiftLeft_eq, Nat.mul_comm, Nat.pow_one]

/-- The address byte of a read (R44). -/
theorem addressByte_read (a : Byte) : natByte (2 * a.toNat) ||| 1#8 = natByte (2 * a.toNat + 1) := by
  rw [← addressByte_write]
  have disjoint : a <<< 1 &&& 1#8 = 0#8 := by
    ext i hi
    rcases i with _ | i <;> simp
  rw [← BitVec.add_eq_or_of_and_eq_zero _ _ disjoint, addressByte_write]
  simp [natByte, BitVec.ofNat_add]

theorem i2cDataIn_succ (n : Nat) : i2cDataIn (n + 1) = List.replicate n .takeAck ++ [.takeNak] := by
  induction n with
  | zero => rfl
  | succ n ih => rw [i2cDataIn, ih, List.replicate_succ, List.cons_append]

theorem isSelectB_eq (a : Address) : a.isSelectB = (a == .selectB) := by
  cases a <;> rfl

/-- The values of a write on the bus (R44). -/
theorem flatMap_busBytes (w : DataWidth) (vs : List Val) :
    vs.flatMap w.busBytes = vs.flatMap fun v => bigEndian w.bytes v.toNat := by
  rw [funext (DataWidth.busBytes_eq w)]

/-- What a transaction is on an I2C lane (R44). -/
theorem i2c_wire (x : I2cSpeed) {c : TargetCfg} {a : Byte} (ha : c.address = .i2c a) (reg : Half) (vs : List Val)
    (n : Nat) :
    let regs : List BusSym := (bigEndian c.regWidth.bytes reg.toNat).map BusSym.send
    let data : List BusSym := (vs.flatMap fun v => bigEndian c.dataWidth.bytes v.toNat).map BusSym.send
    let asked : List BusSym := BusSym.start :: BusSym.send (natByte (2 * a.toNat)) :: regs
    let turned : List BusSym := [BusSym.repeatedStart, BusSym.send (natByte (2 * a.toNat + 1))]
    let taken : List BusSym := List.replicate (n * c.dataWidth.bytes - 1) BusSym.takeAck
    let stopped : List BusSym := [BusSym.takeNak, BusSym.stop]
    writeWire (.i2c x) c reg vs = asked ++ data ++ [BusSym.stop] ∧
    (0 < n * c.dataWidth.bytes → readWire (.i2c x) c reg n = asked ++ turned ++ taken ++ stopped) := by
  refine ⟨?_, fun hn => ?_⟩
  · simp [writeWire, ha, Address.byte, addressByte_write, RegWidth.busBytes_eq, flatMap_busBytes]
  · obtain ⟨m, hm⟩ := Nat.exists_eq_succ_of_ne_zero hn.ne'
    simp only [readWire, ha, Address.byte, addressByte_read, addressByte_write, RegWidth.busBytes_eq, hm,
      Nat.succ_eq_add_one, i2cDataIn_succ, Nat.add_sub_cancel]
    simp

/-- What a transaction is on an SPI lane (R45). -/
theorem spi_wire (x : SpiSpeed) (m : SpiMode) (c : TargetCfg) (reg : Half) (vs : List Val) (n : Nat) :
    let select : Bool := c.address == .selectB
    let regs : List BusSym := (bigEndian c.regWidth.bytes reg.toNat).map BusSym.send
    let data : List BusSym := (vs.flatMap fun v => bigEndian c.dataWidth.bytes v.toNat).map BusSym.send
    let asked (command : Byte) : List BusSym := BusSym.assertSelect select :: BusSym.send command :: regs
    let released : List BusSym := [BusSym.releaseSelect select]
    let taken : List BusSym := List.replicate (n * c.dataWidth.bytes) BusSym.take
    writeWire (.spi x m) c reg vs = asked 0x2A#8 ++ data ++ released ∧
    readWire (.spi x m) c reg n = asked 0x2B#8 ++ taken ++ released := by
  refine ⟨?_, ?_⟩
  · simp [writeWire, isSelectB_eq, RegWidth.busBytes_eq, flatMap_busBytes]
  · simp [readWire, isSelectB_eq, RegWidth.busBytes_eq]

/-! ## The end of a transaction (R46) -/

/-- A transaction that ends with ACK and the bytes it reads has gone over the bus whole (R46). -/
theorem exec_ack {s : State} {l : Fin 4} {f : Flight} {data : List Byte} (hs : s.live = true)
    (hf : (s.lane l).flight = some f) (hp : f.part ≠ .hold) (hd : data.length = f.dataIn) :
    exec (.transactionEnd l (.ack data)) s = .next ((((s.onBus l f.wire).acked l f data).settleLanes).arbitrated) := by
  refine (taking_live hs _).trans ?_
  simp only [transactionEnd, hf, if_neg hp, if_pos hd]

section
variable {s : State} {l : Fin 4} {f : Flight} {data : List Byte}

theorem acked_write_verify (hp : f.part = .write) (hv : f.cfg.verify = true) :
    s.acked l f data = s.startVerify l f := by
  simp only [State.acked, hp, if_pos hv]

theorem acked_write (hp : f.part = .write) (hv : f.cfg.verify = false) : s.acked l f data = s.itemDone l f := by
  simp [State.acked, hp, hv]

theorem acked_verify (hp : f.part = .verify) (hd : data = (f.job.written f.item).flatMap f.cfg.dataWidth.busBytes) :
    s.acked l f data = s.itemDone l f := by
  simp only [State.acked, hp, if_pos hd]

theorem acked_mismatch (hp : f.part = .verify)
    (hd : data ≠ (f.job.written f.item).flatMap f.cfg.dataWidth.busBytes) :
    s.acked l f data = s.attemptFailed l f .mismatch := by
  simp only [State.acked, hp, if_neg hd]

theorem acked_read (hp : f.part = .read) : s.acked l f data = s.readDone l f (busValue data) := by
  simp only [State.acked, hp]

theorem dataIn_write (hp : f.part = .write) : f.dataIn = 0 := by simp [Flight.dataIn, hp]

theorem dataIn_read (hp : f.part = .read) : f.dataIn = f.cfg.dataWidth.bytes := by simp [Flight.dataIn, hp]

theorem dataIn_verify (hp : f.part = .verify) :
    f.dataIn = (f.job.written f.item).length * f.cfg.dataWidth.bytes := by simp [Flight.dataIn, hp]

end

/-! ## The hand-on of a group write (R86, R124) -/

/-- The hand-on with and without loop jobs queued on the lane (log entry 39). -/
theorem handOver_spec (s : State) (l : Fin 4) (g : Fin 8) (t : Fin 16) (writes : List (Half × Val)) :
    ((∀ j ∈ (s.lane l).queue, j.ofTlu = false) → s.handOver l g t writes = s.handOn t writes) ∧
    ((∃ j ∈ (s.lane l).queue, j.ofTlu = true) →
      s.handOver l g t writes =
        (if Config.handOnLate s.fresh = true then s.drawn.takePast g l (s.lane l).queue.length else s.drawn).handOn t
          writes) := by
  refine ⟨fun h => if_neg ?_, fun h => if_pos (List.any_eq_true.2 h)⟩
  rw [List.any_eq_true]
  rintro ⟨j, hj, ht⟩
  rw [h j hj] at ht
  cases ht

theorem ofGroup_iff (g : Fin 8) (j : Job) : j.ofGroup g = true ↔ ∃ i r, j = .record g i r := by
  cases j with
  | record g' i r => simp [Job.ofGroup]
  | loop n k t reg v => simp [Job.ofGroup]
  | read tag t reg => simp [Job.ofGroup]

/-- A lane stops taking heads at a job in flight, at the end of its queue, and at a record of the group. -/
theorem takePast_stops (s : State) (l : Fin 4) (g : Fin 8) (n : Nat)
    (h : (s.lane l).flight ≠ none ∨ (s.lane l).queue = [] ∨ ∃ i r q, (s.lane l).queue = .record g i r :: q) :
    s.takePast g l (n + 1) = s := by
  rw [State.takePast]
  rcases h with h | h | ⟨i, r, q, h⟩
  · simp [Option.isSome_iff_ne_none, h]
  · simp [h]
  · simp [h, Job.ofGroup]

/-- Another head is taken (log entry 39). -/
theorem takePast_takes {s : State} {l : Fin 4} {j : Job} {q : List Job} (g : Fin 8) (n : Nat)
    (hf : (s.lane l).flight = none) (hq : (s.lane l).queue = j :: q) (hj : j.ofGroup g = false) :
    s.takePast g l (n + 1) = State.takePast g l n ((s.setLane l { s.lane l with queue := q }).dispatch l j) := by
  have taken : s.takeHead l = (s.setLane l { s.lane l with queue := q }).dispatch l j := by
    simp [State.takeHead, hf, hq]
  rw [State.takePast, taken]
  simp [hf, hq, hj]

/-! ## The statement -/

/-- What the end of a transaction with ACK leads to, part by part (R46, R47, R53). -/
theorem ack_leads {s : State} {l : Fin 4} {f : Flight} (data : List Byte) (hs : s.live = true)
    (hf : (s.lane l).flight = some f) :
    let sent := s.setLane l { s.lane l with bus := f.wire }
    let idle := sent.setFlight l none
    (f.part = .write → f.cfg.verify = true →
      exec (.transactionEnd l (.ack [])) s =
        .next (((sent.setFlight l (some { f with
          part := .verify
          wire := readWire (s.lane l).settings f.cfg (f.job.register f.item) (f.job.written f.item).length
          })).settleLanes).arbitrated)) ∧
    (f.part = .write → f.cfg.verify = false →
      exec (.transactionEnd l (.ack [])) s = .next (((sent.itemDone l f).settleLanes).arbitrated)) ∧
    (f.part = .verify → data.length = (f.job.written f.item).length * f.cfg.dataWidth.bytes →
      (data = (f.job.written f.item).flatMap f.cfg.dataWidth.busBytes →
        exec (.transactionEnd l (.ack data)) s = .next (((sent.itemDone l f).settleLanes).arbitrated)) ∧
      (data ≠ (f.job.written f.item).flatMap f.cfg.dataWidth.busBytes →
        exec (.transactionEnd l (.ack data)) s = .next (((sent.attemptFailed l f .mismatch).settleLanes).arbitrated))) ∧
    (f.part = .read → data.length = f.cfg.dataWidth.bytes →
      (∀ n k t reg v, f.job = .loop n k t reg v →
        exec (.transactionEnd l (.ack data)) s =
          .next (((idle.loopJobEnd n k t reg (.success (busValue data))).settleLanes).arbitrated)) ∧
      (∀ tag t reg, f.job = .read tag t reg →
        exec (.transactionEnd l (.ack data)) s =
          .next (((idle.answer tag .ok (valBytes (busValue data))).settleLanes).arbitrated))) := by
  refine ⟨fun hp hv => ?_, fun hp hv => ?_, fun hp hd => ?_, fun hp hd => ?_⟩
  · rw [exec_ack hs hf (by simp [hp]) (data := []) (dataIn_write hp).symm, acked_write_verify hp hv, State.startVerify,
      State.lane_onBus_settings]
    rfl
  · rw [exec_ack hs hf (by simp [hp]) (data := []) (dataIn_write hp).symm, acked_write hp hv]
    rfl
  · rw [exec_ack hs hf (by simp [hp]) (hd.trans (dataIn_verify hp).symm)]
    exact ⟨fun h => by rw [acked_verify hp h]; rfl, fun h => by rw [acked_mismatch hp h]; rfl⟩
  · rw [exec_ack hs hf (by simp [hp]) (hd.trans (dataIn_read hp).symm), acked_read hp, State.readDone]
    refine ⟨fun n k t reg v hj => ?_, fun tag t reg hj => ?_⟩
    · rw [hj]; rfl
    · rw [hj]; rfl

/-- What the success of a job of one write comes to (R47, R53, R86). -/
theorem itemDone_spec (s : State) (l : Fin 4) (f : Flight) :
    (∀ g i t reg v, f.job = .record g i (.single t reg v) →
      s.itemDone l f = ((s.setFlight l none).recordEnd g i .done).handOver l g t [(reg, v)]) ∧
    (∀ g i t reg vs, f.job = .record g i (.run t reg vs) →
      s.itemDone l f = ((s.setFlight l none).recordEnd g i .done).handOver l g t
        (vs.mapIdx fun k v => (reg + BitVec.ofNat 16 k, v))) ∧
    (∀ n k t reg v, f.job = .loop n k t reg v →
      s.itemDone l f = (s.setFlight l none).loopJobEnd n k t reg (.success v)) := by
  refine ⟨fun g i t reg v hj => ?_, fun g i t reg vs hj => ?_, fun n k t reg v hj => ?_⟩
  all_goals simp only [State.itemDone, State.writeDone, hj]
  all_goals rfl

/-- Settles O30: the bytes on the bus, the end of a transaction, and the place of the hand-on. -/
theorem transactionAcknowledged : Obligations.TransactionAcknowledged := by
  refine ⟨DataWidth.busBytes_eq, busValue_toNat, fun c reg vs n => ⟨fun x a ha => i2c_wire x ha reg vs n,
    fun x m => spi_wire x m c reg vs n⟩, fun s l f data hs hf => ?_, fun s l g => ⟨handOver_spec s l g, rfl, fun n =>
    ⟨takePast_stops s l g n, fun j q => takePast_takes g n⟩⟩⟩
  obtain ⟨verified, written, checked, read⟩ := ack_leads data hs hf
  exact ⟨verified, written, checked, read, itemDone_spec _ l f⟩

end Sys2Proof.Machine
end

section
/-! SUPPORT. A failed attempt and a target fault (R44, R46, R48, R49), and SCATTER, POLL and WAIT (R50 to R52, R93). -/

namespace Sys2Proof.Machine

/-! ## How a failed transaction ends on the bus (R44, R46) -/

/-- What has gone over the bus up to the byte after the first `k`. -/
theorem sentThrough_append (front : List BusSym) (b : Byte) (back : List BusSym) :
    sentThrough (front.countP BusSym.isSend) (front ++ .send b :: back) = front ++ [.send b] := by
  induction front with
  | nil => rfl
  | cons x front ih =>
    cases h : x.isSend with
    | true => simp [sentThrough, h, ih]
    | false => simp [sentThrough, h, ih]

/-- A transaction that has begun and has not ended is a proper part of the whole (log entry 37). -/
theorem begunWire_spec (k : Nat) (w : List BusSym) :
    begunWire k w <+: w ∧ (2 ≤ w.length → begunWire k w ≠ [] ∧ begunWire k w ≠ w) := by
  refine ⟨List.take_prefix _ _, fun h => ?_⟩
  have hk : k % (w.length - 1) < w.length - 1 := Nat.mod_lt _ (by omega)
  have hl : (begunWire k w).length = 1 + k % (w.length - 1) := by
    rw [begunWire, List.length_take]
    omega
  constructor
  · intro he
    simp [he] at hl
    omega
  · intro he
    rw [he] at hl
    omega

/-- A byte that is not acknowledged on I2C is the last of its transaction (R44). -/
theorem exec_nak {s : State} {l : Fin 4} {f : Flight} (hs : s.live = true) (hf : (s.lane l).flight = some f)
    (hp : f.part ≠ .hold) (hi : (s.lane l).settings.isI2c = true) {front : List BusSym} {b : Byte} {back : List BusSym}
    (hw : f.wire = front ++ .send b :: back) :
    exec (.transactionEnd l (.nak (front.countP BusSym.isSend))) s =
      .next ((((s.onBus l (front ++ [.send b, .stop])).attemptFailed l f .nak).settleLanes).arbitrated) := by
  have hlt : front.countP BusSym.isSend < f.wire.countP BusSym.isSend := by
    simp [hw, BusSym.isSend]
  have bus : nakWire (front.countP BusSym.isSend) f.wire = front ++ [.send b, .stop] := by
    rw [nakWire, hw, sentThrough_append, List.append_assoc]
    rfl
  refine (taking_live hs _).trans ?_
  simp only [transactionEnd, hf, if_neg hp, hi, true_and, if_pos hlt, bus]

/-- A clock hold ends a transaction on I2C with its lines released and a stop condition (R46). -/
theorem exec_clockHold {s : State} {l : Fin 4} {f : Flight} (hs : s.live = true) (hf : (s.lane l).flight = some f)
    (hp : f.part ≠ .hold) (hi : (s.lane l).settings.isI2c = true) :
    exec (.clockHoldTimeout l) s =
      .next ((((s.onBus l (begunWire (Config.cutPlace s.fresh l.val) f.wire ++ [.release, .stop])).drawn.attemptFailed l f
        .timeout).settleLanes).arbitrated) := by
  refine (taking_live hs _).trans ?_
  simp only [clockHoldTimeout, hf, ne_eq, hp, not_false_eq_true, hi, and_self, if_true]
  rfl

/-! ## The attempt again, or the fault (R48, R49) -/

section
variable {s : State} {l : Fin 4} {f : Flight} {r : FaultReason}

theorem attemptFailed_again (h : f.attempt ≤ f.cfg.retries.val) :
    s.attemptFailed l f r = s.startAttempt l { f with attempt := f.attempt + 1 } := if_pos h

theorem attemptFailed_last (h : f.cfg.retries.val < f.attempt) :
    s.attemptFailed l f r = ((s.setFlight l none).reportFault f r).jobFailed l f r := if_neg (Nat.not_le.2 h)

/-- A target that is not faulted takes the fault, with its notice (R49). -/
theorem reportFault_first {t : Fin 16} (ht : f.job.target = some t) (hf : (s.target t).fault = none) :
    s.reportFault f r =
      (s.setTarget t { s.target t with fault := some r }).notify 0x03#8
        ([natByte t.val, natByte (s.target t).cfg.lane.val, r.reason.byte, f.job.kindByte] ++ f.job.ownerBytes ++
          optional 1 (f.scatterItem.map fun i => [natByte i])) := by
  simp [State.reportFault, State.faultTarget, ht, hf, faultNotice]

/-- A target faulted before keeps its fault (R49). -/
theorem reportFault_again {t : Fin 16} (ht : f.job.target = some t) (hf : (s.target t).fault ≠ none) :
    s.reportFault f r = s := by
  simp [State.reportFault, State.faultTarget, ht, Option.isSome_iff_ne_none, hf]

end

/-- What the owner of a failed job is told, by the kind of job (R49 to R51, R55, R86). -/
theorem jobFailed_spec (t : State) (l : Fin 4) (f : Flight) (r : FaultReason) :
    (∀ g i x reg v, f.job = .record g i (.single x reg v) →
      t.jobFailed l f r = t.recordEnd g i (.failed r.reason none)) ∧
    (∀ g i x reg vs, f.job = .record g i (.run x reg vs) →
      t.jobFailed l f r = t.recordEnd g i (.failed r.reason none)) ∧
    (∀ g i x reg m e a p, f.job = .record g i (.poll x reg m e a p) →
      t.jobFailed l f r = t.recordEnd g i (.failed r.reason none)) ∧
    (∀ g i x reg st vs, f.job = .record g i (.scatter x reg st vs) →
      t.jobFailed l f r = (t.recordEnd g i (.failed r.reason (some f.item))).handOver l g x
        ((vs.take f.item).mapIdx fun k v => (st.register reg k, v))) ∧
    (∀ n k x reg v, f.job = .loop n k x reg v → t.jobFailed l f r = t.loopJobEnd n k x reg (.failed r.reason)) ∧
    (∀ tag x reg, f.job = .read tag x reg →
      (r = .nak → t.jobFailed l f r = t.answer tag .nak) ∧
      (r = .timeout → t.jobFailed l f r = t.answer tag .timeout)) := by
  obtain ⟨job, _, _, _, item, _, _, _⟩ := f
  refine ⟨?_, ?_, ?_, ?_, ?_, ?_⟩
  · rintro g i x reg v rfl; rfl
  · rintro g i x reg vs rfl; rfl
  · rintro g i x reg m e a p rfl; rfl
  · rintro g i x reg st vs rfl; rfl
  · rintro n k x reg v rfl; rfl
  · rintro tag x reg rfl
    exact ⟨by rintro rfl; rfl, by rintro rfl; rfl⟩

/-- Settles O31: how the transaction ends on the bus, the attempt again, then the fault and the job's report. -/
theorem transactionFails : Obligations.TransactionFails := by
  intro s l f hs hf hp
  refine ⟨fun hi => ⟨fun front b back hw => exec_nak hs hf hp hi hw, ?_⟩, fun r =>
    ⟨fun ha hr => ?_, fun ha hr => ?_, fun ha => ⟨fun t ht => ⟨fun hn => ?_, fun hn => ?_⟩, fun t =>
    jobFailed_spec t l f r⟩⟩⟩
  · obtain ⟨hprefix, hproper⟩ := begunWire_spec (Config.cutPlace s.fresh l.val) f.wire
    exact ⟨_, hprefix, hproper, exec_clockHold hs hf hp hi⟩
  · rw [attemptFailed_again ha]
    exact startAttempt_writes s l hr
  · rw [attemptFailed_again ha]
    exact startAttempt_reads s l hr
  · rw [attemptFailed_last ha, reportFault_first (s := s.setFlight l none) ht hn]
    rfl
  · rw [attemptFailed_last ha, reportFault_again (s := s.setFlight l none) ht hn]

/-! ## SCATTER (R50, R93) -/

section
variable (s : State) (l : Fin 4) {f : Flight} {g : Fin 8} {i : Nat} {t : Fin 16} {reg : Half} {st : Stride}
  {vs : List Val} (hj : f.job = .record g i (.scatter t reg st vs))
include hj

/-- The next item starts (R50). -/
theorem scatter_next (hi : f.item + 1 < vs.length) (hm : f.marked = false) :
    s.itemDone l f = s.setFlight l (some { f with
      item := f.item + 1, attempt := 1, part := .write
      wire := writeWire (s.lane l).settings f.cfg (st.register reg (f.item + 1)) ((vs.drop (f.item + 1)).take 1) }) := by
  have next : s.itemDone l f = s.startAttempt l { f with item := f.item + 1, attempt := 1 } := by
    simp [State.itemDone, hj, Nat.not_le.2 hi, hm]
  have writes : Job.reads { f with item := f.item + 1, attempt := 1 : Flight }.job = false := by rw [hj]; rfl
  rw [next, startAttempt_writes s l writes]
  simp only [hj]
  rfl

/-- A marked SCATTER ends behind the item just written (R93). -/
theorem scatter_marked (hi : f.item + 1 < vs.length) (hm : f.marked = true) :
    s.itemDone l f = ((s.setFlight l none).recordEnd g i .withdrawn).handOver l g t
      ((vs.take (f.item + 1)).mapIdx fun k v => (st.register reg k, v)) := by
  simp only [State.itemDone, hj, if_neg (Nat.not_le.2 hi), hm, if_true]
  rfl

/-- The last item ends the record (R50). -/
theorem scatter_last (hi : vs.length = f.item + 1) :
    s.itemDone l f = ((s.setFlight l none).recordEnd g i .done).handOver l g t
      (vs.mapIdx fun k v => (st.register reg k, v)) := by
  have whole : (vs.take vs.length).mapIdx (fun k v => (st.register reg k, v)) =
      vs.mapIdx fun k v => (st.register reg k, v) := by rw [List.take_length]
  simp only [State.itemDone, State.writeDone, hj, if_pos hi.le, ← whole]
  rfl

end

/-! ## POLL and WAIT (R51, R52) -/

/-- A poll read that ends ACK is judged by its value (R51). -/
theorem exec_pollRead {s : State} {l : Fin 4} {f : Flight} {g : Fin 8} {i : Nat} {t : Fin 16} {reg : Half}
    {mask expect : Val} {attempts : Half} {gap : Byte} {data : List Byte} (hs : s.live = true)
    (hf : (s.lane l).flight = some f) (hj : f.job = .record g i (.poll t reg mask expect attempts gap))
    (hp : f.part = .read) (hd : data.length = f.cfg.dataWidth.bytes) :
    exec (.transactionEnd l (.ack data)) s =
      .next ((((s.onBus l f.wire).pollRead l f g i mask expect attempts (busValue data)).settleLanes).arbitrated) := by
  rw [exec_ack hs hf (by simp [hp]) (hd.trans (dataIn_read hp).symm), acked_read hp, State.readDone, hj]

/-- The gap of a POLL ends with the next read, its attempts counted anew (R51). -/
theorem exec_gap {s : State} {l : Fin 4} {f : Flight} (hs : s.live = true) (hf : (s.lane l).flight = some f)
    (hp : f.part = .hold) (hr : f.job.reads = true) :
    exec (.pollGapExpiry l) s = .next (s.startAttempt l { f with attempt := 1 }).arbitrated := by
  refine (taking_live hs _).trans ?_
  simp only [pollGapExpiry, hf]
  rw [if_pos ⟨hp, hr⟩]

/-- Settles O32: the items of a SCATTER, the reads and the gap of a POLL, the end of a WAIT. -/
theorem scatterPollAndWait : Obligations.ScatterPollAndWait := by
  intro s l f hs hf
  refine ⟨fun g i t reg st vs hj => ⟨scatter_next s l hj, scatter_marked s l hj, scatter_last s l hj⟩,
    fun g i t reg mask expect attempts gap hj => ⟨fun data hp hd => ?read, fun hp => ?gap⟩, fun g i x d hj => ?wait⟩
  case read =>
    have answered := exec_pollRead hs hf hj hp hd
    refine ⟨fun hv => ?_, fun hv hm => ?_, fun hv hm ha => ?_, fun hv hm ha => ?_⟩
    · rw [State.pollRead, if_pos hv] at answered
      exact answered
    · rw [State.pollRead, if_neg hv, if_pos hm] at answered
      exact answered
    · rw [State.pollRead, if_neg hv, if_neg (by simp [hm]), if_pos ha] at answered
      exact answered
    · rw [State.pollRead, if_neg hv, if_neg (by simp [hm]), if_neg (Nat.not_lt.2 ha)] at answered
      exact answered
  case gap =>
    have reads : f.job.reads = true := by rw [hj]; rfl
    rw [exec_gap hs hf hp reads, startAttempt_reads s l (f := { f with attempt := 1 }) reads]
    simp only [hj]
    rfl
  case wait =>
    obtain ⟨job, _, _, _, _, _, _, _⟩ := f
    cases hj
    refine (taking_live hs _).trans ?_
    simp only [waitExpiry, hf]

end Sys2Proof.Machine
end

section
/-! SUPPORT. The lanes settle: after it every IDLE lane has an empty queue (R40). -/

namespace Sys2Proof.Machine

/-! ## Updates at every index -/

/-- A fold of updates, each of the entry at its own index, updates every entry of the list by its own. -/
theorem foldl_pointwise {ι β : Type} [DecidableEq ι] {get : State → ι → β} {upd : State → ι → State} {f : ι → β → β}
    (h : ∀ s i j, get (upd s i) j = if i = j then f i (get s i) else get s j) {l : List ι} (hl : l.Nodup) (s : State)
    (j : ι) : get (l.foldl upd s) j = if j ∈ l then f j (get s j) else get s j := by
  induction l generalizing s with
  | nil => rfl
  | cons i l ih =>
    obtain ⟨hi, hl'⟩ := List.nodup_cons.1 hl
    rw [List.foldl_cons, ih hl', h]
    by_cases hij : i = j
    · subst hij
      simp [hi]
    · simp [hij, Ne.symm hij]

/-- With the list of all indices every entry is updated. -/
theorem foldl_upTo {n : Nat} {β : Type} {get : State → Fin n → β} {upd : State → Fin n → State} {f : Fin n → β → β}
    (h : ∀ s i j, get (upd s i) j = if i = j then f i (get s i) else get s j) (s : State) (j : Fin n) :
    get ((upTo n).foldl upd s) j = f j (get s j) := by
  rw [upTo, foldl_pointwise h (List.nodup_finRange n), if_pos (List.mem_finRange j)]

theorem lane_dropQueued (s : State) (p : Job → Bool) (l : Fin 4) :
    (s.dropQueued p).lane l = { s.lane l with queue := (s.lane l).queue.filter fun j => !p j } :=
  foldl_upTo (get := State.lane) (f := fun _ x => { x with queue := x.queue.filter fun j => !p j })
    (fun s i j => by rw [State.lane_setLane]) s l

/-! ## A job dispatched appends none (R41) -/

theorem lanes_recordEnd (s : State) (g : Fin 8) (i : Nat) (e : RecordEnd) : (s.recordEnd g i e).lanes = s.lanes :=
  lanes_of_besideReports (besideReports_recordEnd ..)

theorem lanes_leaveRun (s : State) (n : Fin 4) (st : LoopState) :
    (s.leaveRun n st).lanes = (s.dropQueued (Job.ofLoop n)).lanes := rfl

/-- A loop job that ends without success leaves the lanes, or withdraws the loop's queued jobs (R118, R120). -/
theorem lanes_loopJobEnd {e : LoopEnd} (he : ∀ v, e ≠ .success v) (s : State) (n : Fin 4) (k : LoopJobKind)
    (t : Fin 16) (reg : Half) :
    (s.loopJobEnd n k t reg e).lanes = s.lanes ∨
      (s.loopJobEnd n k t reg e).lanes =
        ((s.setLoop n { s.loop n with jobsOut := (s.loop n).jobsOut - 1 }).dropQueued (Job.ofLoop n)).lanes := by
  simp only [State.loopJobEnd]
  split_ifs
  · exact .inl rfl
  · cases e with
    | success v => exact absurd rfl (he v)
    | failed r => exact .inr rfl
    | skipped => exact .inr rfl
    | dropped => exact .inl rfl

/-- No queue of `t` is longer than that of `s`. -/
def State.noLonger (s t : State) : Prop := ∀ l, (t.lane l).queue.length ≤ (s.lane l).queue.length

theorem noLonger_of_lanes {s t : State} (h : t.lanes = s.lanes) : s.noLonger t := fun l => by
  rw [State.lane, h]
  exact Nat.le_refl _

theorem noLonger_dropQueued (s : State) (p : Job → Bool) : s.noLonger (s.dropQueued p) := fun l => by
  rw [lane_dropQueued]
  exact List.length_filter_le ..

theorem noLonger_setFlight (s : State) (l : Fin 4) (f : Option Flight) : s.noLonger (s.setFlight l f) := fun m => by
  rw [State.setFlight, State.lane_setLane]
  split_ifs with h
  · rw [h]
  · exact Nat.le_refl _

theorem noLonger_loopJobEnd {e : LoopEnd} (he : ∀ v, e ≠ .success v) (s : State) (n : Fin 4) (k : LoopJobKind)
    (t : Fin 16) (reg : Half) : s.noLonger (s.loopJobEnd n k t reg e) := by
  rcases lanes_loopJobEnd he s n k t reg with h | h
  · exact noLonger_of_lanes h
  · intro l
    rw [State.lane, h]
    exact noLonger_dropQueued (s.setLoop n _) _ l

theorem noLonger_dispatchTo (s : State) (l : Fin 4) (j : Job) (t : Fin 16) : s.noLonger (s.dispatchTo l j t) := by
  simp only [State.dispatchTo]
  split_ifs
  · unfold State.turnedAway
    split
    · exact noLonger_of_lanes (lanes_recordEnd s _ _ _)
    · exact noLonger_of_lanes (lanes_recordEnd s _ _ _)
    · exact noLonger_loopJobEnd (by simp) s _ _ _ _
    · exact noLonger_of_lanes rfl
  · unfold State.skipped
    split
    · exact noLonger_of_lanes (lanes_recordEnd s _ _ _)
    · exact noLonger_loopJobEnd (by simp) s _ _ _ _
    · exact noLonger_of_lanes rfl
  · exact noLonger_setFlight s l _

/-- No dispatch appends a job: its end, if it ends, is no success of a measure. -/
theorem noLonger_dispatch (s : State) (l : Fin 4) (j : Job) : s.noLonger (s.dispatch l j) := by
  unfold State.dispatch
  split
  · exact noLonger_setFlight s l _
  · exact noLonger_of_lanes (lanes_recordEnd (s.applySetpoint _ _) _ _ _)
  · exact noLonger_dispatchTo s l _ _
  · exact noLonger_dispatchTo s l _ _
  · exact noLonger_dispatchTo s l _ _
  · exact noLonger_dispatchTo s l _ _
  · split_ifs
    · exact noLonger_loopJobEnd (by simp) s _ _ _ _
    · exact noLonger_dispatchTo s l _ _
  · exact noLonger_dispatchTo s l _ _

/-! ## The lanes settle (R40) -/

theorem mem_readyLanes (s : State) (l : Fin 4) :
    l ∈ s.readyLanes ↔ (s.lane l).flight = none ∧ (s.lane l).queue ≠ [] := by
  simp [State.readyLanes, upTo]

/-- The lane law says that no lane can take a job. -/
theorem laneLaw_of_readyLanes {s : State} (h : s.readyLanes = []) : s.laneLaw := fun l hf => by
  by_contra hq
  have hl := (mem_readyLanes s l).2 ⟨hf, hq⟩
  rw [h] at hl
  cases hl

/-- The number of jobs queued. -/
theorem queuedCount_all (s : State) : s.queuedCount (fun _ => true) = ∑ l, (s.lane l).queue.length := by
  simp only [State.queuedCount, sum_upTo, List.countP_true]

/-- A lane that takes its head job leaves fewer jobs queued. -/
theorem queuedCount_takeHead {s : State} {l : Fin 4} (hl : l ∈ s.readyLanes) :
    (s.takeHead l).queuedCount (fun _ => true) < s.queuedCount fun _ => true := by
  obtain ⟨hf, hq⟩ := (mem_readyLanes s l).1 hl
  obtain ⟨j, q, hjq⟩ := List.exists_cons_of_ne_nil hq
  have taken : s.takeHead l = (s.setLane l { s.lane l with queue := q }).dispatch l j := by
    simp [State.takeHead, hf, hjq]
  have shorter := noLonger_dispatch (s.setLane l { s.lane l with queue := q }) l j
  rw [queuedCount_all, queuedCount_all, taken]
  refine Finset.sum_lt_sum (fun m _ => ?_) ⟨l, Finset.mem_univ l, ?_⟩
  · refine (shorter m).trans ?_
    rw [State.lane_setLane]
    split_ifs with h
    · rw [← h, hjq]
      exact Nat.le_succ _
    · exact Nat.le_refl _
  · refine Nat.lt_of_le_of_lt (shorter l) ?_
    rw [State.lane_setLane_self, hjq]
    exact Nat.lt_succ_self _

/-- As many heads as there are jobs queued leave no lane that can take one. -/
theorem laneLaw_takeHeads (n : Nat) (s : State) (hn : s.queuedCount (fun _ => true) ≤ n) :
    (State.takeHeads n s).laneLaw := by
  induction n generalizing s with
  | zero =>
    refine laneLaw_of_readyLanes (List.eq_nil_iff_forall_not_mem.2 fun l hl => ?_)
    exact absurd (queuedCount_takeHead (s := s) hl) (by omega)
  | succ n ih =>
    by_cases hr : s.readyLanes = []
    · rw [State.takeHeads, hr]
      exact laneLaw_of_readyLanes hr
    · obtain ⟨l, hl, hpick⟩ := oneOf_isSome (Config.laneFirst s.fresh) hr
      have fewer : (s.drawn.takeHead l).queuedCount (fun _ => true) < s.queuedCount fun _ => true :=
        queuedCount_takeHead (s := s.drawn) hl
      rw [State.takeHeads, hpick]
      exact ih _ (by omega)

/-- After the lanes have settled, an IDLE lane has an empty queue, however they were before (R40). -/
theorem laneLaw_settleLanes (s : State) : s.settleLanes.laneLaw := laneLaw_takeHeads _ s (Nat.le_refl _)

end Sys2Proof.Machine
end

section
/-! SUPPORT. The lane law, kept by every command: most leave the lanes alone, and those that do not settle them, empty them,
or touch no queue (R40). -/

namespace Sys2Proof.Machine

/-! ## The store leaves the lanes alone -/

theorem lanes_of_besideStore {s t : State} (h : t.besideStore = s.besideStore) : t.lanes = s.lanes := congrArg Prod.fst h

theorem lanes_foldl {α : Type} {f : State → α → State} (h : ∀ s a, (f s a).lanes = s.lanes) (l : List α) (s : State) :
    (l.foldl f s).lanes = s.lanes :=
  foldl_keeps (P := fun t => t.lanes = s.lanes) (fun t a ht => (h t a).trans ht) l s rfl

theorem lanes_choose (s : State) : s.choose.lanes = s.lanes := lanes_of_besideStore (besideStore_choose s)

theorem lanes_replyTo (s : State) (op : StoreOp) (st : Status) (r : List Byte) : (s.replyTo op st r).lanes = s.lanes :=
  lanes_of_besideStore (besideStore_replyTo ..)

theorem lanes_release (s : State) (g : Fin 8) : (s.release g).lanes = s.lanes :=
  lanes_of_besideStore (besideStore_release ..)

theorem lanes_setOpSlot (s : State) (op : StoreOp) (x : SlotState) : (s.setOpSlot op x).lanes = s.lanes :=
  lanes_of_besideStore (besideStore_setOpSlot ..)

theorem lanes_engineFree (s : State) : s.engineFree.lanes = s.lanes := lanes_choose _

theorem lanes_judge (s : State) : s.judge.lanes = s.lanes := by
  unfold State.judge
  split
  · split_ifs <;> rfl
  · rfl

theorem lanes_accept (s : State) (k : StoreKind) (o : Option Byte) : (s.accept k o).lanes = s.lanes := by
  unfold State.accept
  rw [lanes_judge, lanes_choose]

theorem lanes_chooseUnder (s : State) (x : Suspended) : (s.chooseUnder x).lanes = s.lanes := by
  unfold State.chooseUnder
  split <;> rfl

theorem lanes_suspend (s : State) (x : Suspended) : (s.suspend x).lanes = s.lanes := lanes_chooseUnder _ x

theorem lanes_reserve (s : State) (g : Fin 8) : (s.reserve g).lanes = s.lanes := by
  unfold State.reserve
  split_ifs <;> rfl

theorem lanes_nextPages (s : State) (w : Work) (l : List (Fin 16)) : (s.nextPages w l).lanes = s.lanes := by
  unfold State.nextPages
  split_ifs
  · exact lanes_suspend s _
  · rfl

theorem lanes_storeFault (s : State) (w : Work) (b : Byte) : (s.storeFault w b).lanes = s.lanes := by
  unfold State.storeFault
  rw [lanes_engineFree, lanes_replyTo, lanes_setOpSlot]

theorem lanes_saveDone (s : State) (w : Work) : (s.saveDone w).lanes = s.lanes := by
  unfold State.saveDone
  split
  · rw [lanes_engineFree, lanes_replyTo]; rfl
  · rw [lanes_engineFree, lanes_replyTo]

theorem lanes_eraseComplete (left : List (Nat × Byte)) (s : State) : (eraseComplete left s).lanes = s.lanes := by
  unfold eraseComplete
  split
  · simp only
    split_ifs
    · rw [lanes_storeFault]; rfl
    · split
      · rw [lanes_engineFree, lanes_replyTo]; rfl
      · rw [lanes_nextPages]; rfl
  · rfl

theorem lanes_pageProgramComplete (left : Option (List Byte)) (s : State) :
    (pageProgramComplete left s).lanes = s.lanes := by
  unfold pageProgramComplete
  split
  · simp only
    split_ifs
    · rw [lanes_storeFault]; rfl
    · rw [lanes_saveDone]; rfl
    · rw [lanes_nextPages]; rfl
  · rfl

theorem lanes_fuseProgramComplete (b : Bool) (s : State) : (fuseProgramComplete b s).lanes = s.lanes := by
  unfold fuseProgramComplete
  split
  · simp only
    split_ifs
    · rw [lanes_engineFree, lanes_replyTo]; rfl
    · rw [lanes_engineFree, lanes_replyTo]
  · rfl

theorem lanes_suspendEffect (s : State) : (suspendEffect s).lanes = s.lanes := by
  unfold suspendEffect
  split
  · split_ifs
    · rfl
    · exact lanes_suspend s _
    · rfl
  · rfl

theorem lanes_resumeGuardExpiry (s : State) : (resumeGuardExpiry s).lanes = s.lanes := by
  unfold resumeGuardExpiry
  split_ifs
  · exact lanes_judge _
  · rfl

theorem lanes_cancelStore (s : State) : s.cancelStore.lanes = s.lanes := lanes_of_besideStore (besideStore_cancelStore s)

/-! ## So do loads and the start's steps -/

theorem lanes_loadEnd (s : State) (op : StoreOp) (slot : Fin 32) (g : Fin 8) : (s.loadEnd op slot g).lanes = s.lanes := by
  unfold State.loadEnd State.loadGroup
  rw [lanes_replyTo]
  split
  · split_ifs <;> rfl
  all_goals exact lanes_release _ g

theorem lanes_startLoaded (s : State) (e : LoadEnd) : (s.startLoaded e).lanes = s.lanes := by
  unfold State.startLoaded State.armStart
  split
  · split_ifs <;> rfl
  all_goals rfl

theorem lanes_startStep (s : State) (e : LoadEnd) : (s.startStep e).lanes = s.lanes := by
  unfold State.startStep State.lastStep
  split_ifs
  · exact lanes_startLoaded s e
  · split
    all_goals exact lanes_startLoaded s e

theorem lanes_loadOver (s : State) (op : StoreOp) : (s.loadOver op).lanes = s.lanes := by
  unfold State.loadOver
  split
  · simp only
    split_ifs
    · rw [lanes_startStep, lanes_loadEnd]
    · exact lanes_loadEnd ..
  all_goals rfl

theorem lanes_imageReadComplete (s : State) : (imageReadComplete s).lanes = s.lanes := by
  unfold imageReadComplete
  split
  · rw [lanes_engineFree, lanes_loadOver]
  · rw [lanes_chooseUnder, lanes_loadOver]
  · rfl

theorem lanes_idled (s : State) : s.idled.lanes = s.lanes := by
  unfold State.idled
  split
  · split_ifs <;> rfl
  all_goals rfl

theorem lanes_closeWindow (s : State) (line : Line) : (s.closeWindow line).lanes = s.lanes := by
  simp only [State.closeWindow]
  split
  · rfl
  · exact (lanes_foldl (fun _ _ => by rfl) _ _).trans (State.setLine_lanes ..)

theorem lanes_transmitEnd (straps : Straps) (s : State) :
    (transmitEnd straps s).lanes = s.lanes ∨ (transmitEnd straps s).lanes = Vector.replicate 4 Lane.reset := by
  unfold transmitEnd
  split
  · exact .inl rfl
  · split_ifs
    · exact .inr rfl
    · exact .inl (State.freed_lanes s)

/-! ## The lane law through the lanes -/

theorem laneLaw_of_lanes {s t : State} (h : t.lanes = s.lanes) (hs : s.laneLaw) : t.laneLaw := fun l => by
  rw [State.lane, h]
  exact hs l

theorem laneLaw_reset {s : State} (h : s.lanes = Vector.replicate 4 Lane.reset) : s.laneLaw := fun l _ => by
  simp [State.lane, h, Lane.reset]

/-- A lane whose new state keeps the law keeps it for the part. -/
theorem laneLaw_setLane {s : State} {l : Fin 4} {x : Lane} (hx : x.flight = none → x.queue = []) (hs : s.laneLaw) :
    (s.setLane l x).laneLaw := fun m => by
  rw [State.lane_setLane]
  split_ifs
  · exact hx
  · exact hs m

theorem laneLaw_startAttempt {s : State} (l : Fin 4) (f : Flight) (hs : s.laneLaw) : (s.startAttempt l f).laneLaw :=
  laneLaw_setLane (fun h => by cases h) hs

theorem laneLaw_dropQueued {s : State} (p : Job → Bool) (hs : s.laneLaw) : (s.dropQueued p).laneLaw := fun l hf => by
  rw [lane_dropQueued] at hf ⊢
  simp [hs l hf]

theorem laneLaw_stopLoop {s : State} (n : Fin 4) (hs : s.laneLaw) : (s.stopLoop n).laneLaw :=
  laneLaw_of_lanes (lanes_leaveRun s n .stopped) (laneLaw_dropQueued _ hs)

theorem laneLaw_loopReset {s : State} (n : Fin 4) (hs : s.laneLaw) : (s.loopReset n).laneLaw :=
  laneLaw_of_lanes (s := s.stopLoop n) rfl (laneLaw_stopLoop n hs)

/-- After a reset of the lanes no lane has a job (R57). -/
theorem laneLaw_cutLanes (s : State) : s.cutLanes.laneLaw := fun l _ => (Lane.jobs_eq_nil (cutLanes_jobs s l)).2

/-! ## Requests -/

/-- A request of an owner that keeps the lane law keeps it. -/
theorem laneLaw_request {s : State} {h : ReqHead} {c : Byte} {chk : Option Status} {own : State → State}
    (ho : ∀ t : State, t.laneLaw → (own t).laneLaw) (hs : s.laneLaw) : (s.request h c chk own).laneLaw := by
  unfold State.request
  split_ifs
  · exact hs
  · split
    · exact hs
    · exact ho _ hs

/-- A request of an owner that leaves the lanes alone keeps the lane law. -/
theorem laneLaw_requestBeside {s : State} {h : ReqHead} {c : Byte} {chk : Option Status} {own : State → State}
    (ho : ∀ t : State, (own t).lanes = t.lanes) (hs : s.laneLaw) : (s.request h c chk own).laneLaw :=
  laneLaw_request (fun t => laneLaw_of_lanes (ho t)) hs

section
variable (tag : Byte) (s : State)

theorem lanes_ownGroupOpen (g : Byte) : (ownGroupOpen tag g s).lanes = s.lanes := by
  unfold ownGroupOpen
  repeat' split
  all_goals rfl

theorem lanes_ownGroupAdd (g : Byte) (r : RawRecord) : (ownGroupAdd tag g r s).lanes = s.lanes := by
  unfold ownGroupAdd
  repeat' split
  all_goals rfl

theorem lanes_ownGroupClose (g : Byte) : (ownGroupClose tag g s).lanes = s.lanes := by
  unfold ownGroupClose
  split
  · rfl
  · simp only
    split_ifs <;> rfl

theorem lanes_ownGroupDrop (g : Byte) : (ownGroupDrop tag g s).lanes = s.lanes := by
  unfold ownGroupDrop
  split
  · rfl
  · simp only
    split_ifs <;> rfl

theorem lanes_ownGroupEdit (g i : Byte) (v : List Val) : (ownGroupEdit tag g i v s).lanes = s.lanes := by
  unfold ownGroupEdit
  split
  · rfl
  · simp only
    split_ifs
    · rfl
    · repeat' split
      all_goals rfl

theorem lanes_ownGroupQuery (g : Byte) : (ownGroupQuery tag g s).lanes = s.lanes := by
  unfold ownGroupQuery
  split <;> rfl

theorem lanes_ownGroupRead (g f : Byte) : (ownGroupRead tag g f s).lanes = s.lanes := by
  unfold ownGroupRead
  split
  · rfl
  · simp only
    split_ifs <;> rfl

theorem lanes_ownGroupArm (g l x m : Byte) : (ownGroupArm tag g l x m s).lanes = s.lanes := by
  unfold ownGroupArm
  repeat' split
  all_goals rfl

theorem lanes_ownGroupDisarm (g : Byte) : (ownGroupDisarm tag g s).lanes = s.lanes := by
  unfold ownGroupDisarm
  repeat' split
  all_goals rfl

theorem lanes_ownTargetSet (t : Byte) (r : RawTarget) : (ownTargetSet tag t r s).lanes = s.lanes := by
  unfold ownTargetSet
  repeat' split
  all_goals rfl

theorem lanes_ownTargetQuery (t : Byte) : (ownTargetQuery tag t s).lanes = s.lanes := by
  unfold ownTargetQuery
  split <;> rfl

theorem lanes_ownTargetClear (t : Byte) : (ownTargetClear tag t s).lanes = s.lanes := by
  unfold ownTargetClear
  split <;> rfl

theorem lanes_ownLaneQuery (n : Byte) : (ownLaneQuery tag n s).lanes = s.lanes := by
  unfold ownLaneQuery
  split <;> rfl

theorem lanes_ownSyncSet (l e : Byte) (w : Half) : (ownSyncSet tag l e w s).lanes = s.lanes := by
  unfold ownSyncSet
  split
  · split_ifs
    · exact State.setLine_lanes ..
    · rfl
  all_goals rfl

theorem lanes_ownSyncQuery (l : Byte) : (ownSyncQuery tag l s).lanes = s.lanes := by
  unfold ownSyncQuery
  split <;> rfl

theorem lanes_ownLoopSet (n : Byte) (r : RawLoop) : (ownLoopSet tag n r s).lanes = s.lanes := by
  unfold ownLoopSet
  repeat' split
  all_goals rfl

theorem lanes_ownLoopQuery (n : Byte) : (ownLoopQuery tag n s).lanes = s.lanes := by
  unfold ownLoopQuery
  split <;> rfl

theorem lanes_ownSlotSave (g x : Byte) (l : Label) : (ownSlotSave tag g x l s).lanes = s.lanes := by
  unfold ownSlotSave
  split
  · split
    · rfl
    · simp only
      split_ifs
      · rfl
      · rfl
      · rw [lanes_accept]; rfl
  all_goals rfl

theorem lanes_ownSlotLoad (x g : Byte) : (ownSlotLoad tag x g s).lanes = s.lanes := by
  unfold ownSlotLoad
  split
  · split_ifs
    · rfl
    · rw [lanes_accept, lanes_reserve]
  all_goals rfl

theorem lanes_ownSlotErase (x : Byte) : (ownSlotErase tag x s).lanes = s.lanes := by
  unfold ownSlotErase
  repeat' split
  · rfl
  · rfl
  · exact lanes_accept ..

theorem lanes_ownSlotProtect (x : Byte) : (ownSlotProtect tag x s).lanes = s.lanes := by
  unfold ownSlotProtect
  split <;> rfl

theorem lanes_ownSlotUnprotect (x : Byte) : (ownSlotUnprotect tag x s).lanes = s.lanes := by
  unfold ownSlotUnprotect
  repeat' split
  all_goals rfl

theorem lanes_ownSlotLock (x : Byte) : (ownSlotLock tag x s).lanes = s.lanes := by
  unfold ownSlotLock
  split
  · rfl
  · split_ifs
    · rfl
    · exact lanes_accept ..

theorem lanes_ownSetupStart (d : RawDesignation) : (ownSetupStart tag d s).lanes = s.lanes := by
  unfold ownSetupStart
  split <;> rfl

end

section
variable (tag : Byte) {s : State} (hs : s.laneLaw)
include hs

theorem laneLaw_ownGroupApply (g : Byte) : (ownGroupApply tag g s).laneLaw := by
  unfold ownGroupApply
  split
  · exact hs
  · split_ifs
    · exact hs
    · exact laneLaw_settleLanes _

theorem laneLaw_ownGroupAbort (g : Byte) : (ownGroupAbort tag g s).laneLaw := by
  unfold ownGroupAbort
  split
  · exact hs
  · split_ifs
    · exact hs
    · exact laneLaw_settleLanes _

theorem laneLaw_ownTargetRead (t : Byte) (reg : Half) : (ownTargetRead tag t reg s).laneLaw := by
  unfold ownTargetRead
  split
  · exact hs
  · simp only
    split_ifs
    · exact hs
    · exact hs
    · exact laneLaw_settleLanes _

/-- LANE.SET takes a lane that has no job (R36). -/
theorem laneLaw_ownLaneSet (n : Byte) (r : RawLane) : (ownLaneSet tag n r s).laneLaw := by
  unfold ownLaneSet
  split
  · exact hs
  · rename_i l _
    split
    · exact hs
    · simp only
      split_ifs
      · exact hs
      · exact hs
      · exact laneLaw_setLane (l := l) (hs l) hs

theorem laneLaw_ownSyncPulse (l : Byte) : (ownSyncPulse tag l s).laneLaw := by
  unfold ownSyncPulse
  split
  · exact hs
  · exact laneLaw_settleLanes _

theorem laneLaw_ownLoopStart (n : Byte) : (ownLoopStart tag n s).laneLaw := by
  unfold ownLoopStart
  split
  · exact hs
  · split
    · exact hs
    · exact laneLaw_settleLanes _

theorem laneLaw_ownLoopStop (n : Byte) : (ownLoopStop tag n s).laneLaw := by
  unfold ownLoopStop
  split
  · exact hs
  · rename_i n' _
    split_ifs
    · exact hs
    · exact laneLaw_stopLoop n' hs

omit hs in
theorem laneLaw_ownPartResetSequencer : (ownPartResetSequencer tag s).laneLaw := by
  have h := laneLaw_of_lanes (lanes_cancelStore s.cutLanes) (laneLaw_cutLanes s)
  unfold ownPartResetSequencer
  generalize s.cutLanes.cancelStore = t at h ⊢
  exact h

omit hs in
theorem laneLaw_ownPartResetLanes : (ownPartResetLanes tag s).laneLaw := by
  have h := laneLaw_cutLanes s
  unfold ownPartResetLanes
  generalize s.cutLanes = t at h ⊢
  exact h

theorem laneLaw_ownPartResetLoops : (ownPartResetLoops tag s).laneLaw := by
  have h := foldl_keeps (P := State.laneLaw) (fun t n ht => laneLaw_loopReset n ht) (upTo 4) s hs
  unfold ownPartResetLoops
  generalize (upTo 4).foldl State.loopReset s = t at h ⊢
  exact h

end

/-! ## Frames -/

section
variable {s : State} (hs : s.laneLaw)
include hs

theorem laneLaw_groupRequest (h : ReqHead) (c : Byte) (b : List Byte) : (groupRequest h c b s).laneLaw := by
  unfold groupRequest
  split
  · exact laneLaw_requestBeside (fun t => lanes_ownGroupOpen _ t _) hs
  · exact laneLaw_requestBeside (fun t => lanes_ownGroupAdd _ t _ _) hs
  · exact laneLaw_requestBeside (fun t => lanes_ownGroupClose _ t _) hs
  · exact laneLaw_requestBeside (fun t => lanes_ownGroupDrop _ t _) hs
  · exact laneLaw_requestBeside (fun t => lanes_ownGroupEdit _ t _ _ _) hs
  · exact laneLaw_requestBeside (fun t => lanes_ownGroupQuery _ t _) hs
  · exact laneLaw_requestBeside (fun t => lanes_ownGroupRead _ t _ _) hs
  · exact laneLaw_requestBeside (fun t => lanes_ownGroupArm _ t _ _ _ _) hs
  · exact laneLaw_requestBeside (fun t => lanes_ownGroupDisarm _ t _) hs
  · exact laneLaw_request (fun _ ht => laneLaw_ownGroupApply _ ht _) hs
  · exact laneLaw_request (fun _ ht => laneLaw_ownGroupAbort _ ht _) hs
  · exact hs

theorem laneLaw_laneRequest (h : ReqHead) (c : Byte) (b : List Byte) : (laneRequest h c b s).laneLaw := by
  unfold laneRequest
  split
  · exact laneLaw_requestBeside (fun t => lanes_ownTargetSet _ t _ _) hs
  · exact laneLaw_requestBeside (fun t => lanes_ownTargetQuery _ t _) hs
  · exact laneLaw_requestBeside (fun t => lanes_ownTargetClear _ t _) hs
  · exact laneLaw_request (fun _ ht => laneLaw_ownTargetRead _ ht _ _) hs
  · exact laneLaw_request (fun _ ht => laneLaw_ownLaneSet _ ht _ _) hs
  · exact laneLaw_requestBeside (fun t => lanes_ownLaneQuery _ t _) hs
  · exact laneLaw_requestBeside (fun t => lanes_ownSyncSet _ t _ _ _) hs
  · exact laneLaw_request (fun _ ht => laneLaw_ownSyncPulse _ ht _) hs
  · exact laneLaw_requestBeside (fun t => lanes_ownSyncQuery _ t _) hs
  · exact hs

theorem laneLaw_loopRequest (h : ReqHead) (c : Byte) (b : List Byte) : (loopRequest h c b s).laneLaw := by
  unfold loopRequest
  split
  · exact laneLaw_requestBeside (fun t => lanes_ownLoopSet _ t _ _) hs
  · exact laneLaw_request (fun _ ht => laneLaw_ownLoopStart _ ht _) hs
  · exact laneLaw_request (fun _ ht => laneLaw_ownLoopStop _ ht _) hs
  · exact laneLaw_requestBeside (fun t => lanes_ownLoopQuery _ t _) hs
  · exact hs

theorem laneLaw_reqPartReset (h : ReqHead) (c : Byte) : (reqPartReset h c s).laneLaw := by
  unfold reqPartReset
  split_ifs
  · exact laneLaw_requestBeside (fun _ => rfl) hs
  · exact laneLaw_request (fun _ _ => laneLaw_ownPartResetSequencer _) hs
  · exact laneLaw_request (fun _ _ => laneLaw_ownPartResetLanes _) hs
  · exact laneLaw_request (fun _ ht => laneLaw_ownPartResetLoops _ ht) hs
  · exact laneLaw_requestBeside (fun _ => rfl) hs

theorem laneLaw_storeRequest (h : ReqHead) (c : Byte) (b : List Byte) : (storeRequest h c b s).laneLaw := by
  unfold storeRequest
  split
  · exact laneLaw_requestBeside (fun t => lanes_ownSlotSave _ t _ _ _) hs
  · exact laneLaw_requestBeside (fun t => lanes_ownSlotLoad _ t _ _) hs
  · exact laneLaw_requestBeside (fun t => lanes_ownSlotErase _ t _) hs
  · exact laneLaw_requestBeside (fun t => lanes_ownSlotProtect _ t _) hs
  · exact laneLaw_requestBeside (fun t => lanes_ownSlotUnprotect _ t _) hs
  · exact laneLaw_requestBeside (fun t => lanes_ownSlotLock _ t _) hs
  · exact laneLaw_requestBeside (fun _ => rfl) hs
  · exact laneLaw_requestBeside (fun _ => rfl) hs
  · exact laneLaw_requestBeside (fun t => lanes_accept t _ _) hs
  · exact laneLaw_requestBeside (fun t => lanes_ownSetupStart _ t _) hs
  · exact laneLaw_requestBeside (fun _ => rfl) hs
  · exact laneLaw_requestBeside (fun _ => rfl) hs
  · exact laneLaw_requestBeside (fun _ => rfl) hs
  · exact laneLaw_reqPartReset hs _ _
  · exact hs

theorem laneLaw_frameTaken (h : ReqHead) (c : Byte) (b : List Byte) : (frameTaken h c b s).laneLaw := by
  unfold frameTaken
  split
  · exact laneLaw_requestBeside (fun _ => rfl) hs
  · split_ifs
    · exact laneLaw_groupRequest hs _ _ _
    · exact laneLaw_laneRequest hs _ _ _
    · exact laneLaw_loopRequest hs _ _ _
    · exact laneLaw_storeRequest hs _ _ _

theorem laneLaw_characterArrival (c : Byte) : (characterArrival c s).laneLaw := by
  unfold characterArrival assemble
  extract_lets _ t
  have ht : t.laneLaw := hs
  clear_value t
  split
  · exact ht
  · split_ifs <;> exact ht
  · split_ifs
    · exact ht
    · exact ht
    · exact ht
    · exact laneLaw_frameTaken (s := t.setRx .hunting) ht _ _ _
  · exact ht

theorem laneLaw_gapExpired : (gapExpired s).laneLaw := by
  unfold gapExpired
  split
  · split
    · split <;> exact hs
    all_goals exact hs
  · exact hs

/-! ## Events -/

theorem laneLaw_setupAreaRead : (setupAreaRead s).laneLaw := by
  unfold setupAreaRead
  split_ifs
  · exact laneLaw_settleLanes _
  · exact hs

theorem laneLaw_filterSettled (line : Line) : (filterSettled line s).laneLaw := by
  unfold filterSettled
  simp only
  split_ifs
  · exact laneLaw_settleLanes _
  · exact laneLaw_of_lanes (State.setLine_lanes ..) hs
  · exact hs

theorem laneLaw_transactionEnd (l : Fin 4) (e : BusEnd) : (transactionEnd l e s).laneLaw := by
  unfold transactionEnd
  split
  · exact hs
  · split_ifs
    · exact hs
    · cases e with
      | ack d =>
        simp only
        split_ifs
        · exact laneLaw_settleLanes _
        · exact hs
      | nak k =>
        simp only
        split_ifs
        · exact laneLaw_settleLanes _
        · exact hs

theorem laneLaw_clockHoldTimeout (l : Fin 4) : (clockHoldTimeout l s).laneLaw := by
  unfold clockHoldTimeout
  split
  · exact hs
  · split_ifs
    · exact laneLaw_settleLanes _
    · exact hs

theorem laneLaw_pollGapExpiry (l : Fin 4) : (pollGapExpiry l s).laneLaw := by
  unfold pollGapExpiry
  split
  · exact hs
  · split_ifs
    · exact laneLaw_startAttempt l _ hs
    · exact hs

theorem laneLaw_waitExpiry (l : Fin 4) : (waitExpiry l s).laneLaw := by
  unfold waitExpiry
  split
  · exact laneLaw_settleLanes _
  · exact hs
  · exact hs

theorem laneLaw_transmitEnd (x : Straps) : (transmitEnd x s).laneLaw := by
  rcases lanes_transmitEnd x s with h | h
  · exact laneLaw_of_lanes h hs
  · exact laneLaw_reset h

theorem laneLaw_directoryRebuild : (directoryRebuild s).laneLaw := by
  unfold directoryRebuild
  split_ifs
  · exact laneLaw_of_lanes (by simp only) hs
  · exact hs

theorem laneLaw_resetnRelease (x : Straps) : (resetnRelease x s).laneLaw := by
  unfold resetnRelease
  split
  · exact hs
  · split
    · exact laneLaw_reset rfl
    · exact hs

omit hs in
theorem laneLaw_powerOn (x : Straps) : (powerOn x s).laneLaw := by
  unfold powerOn
  split <;> exact laneLaw_reset rfl

/-! ## Every command -/

theorem laneLaw_taking {f : State → State} (hf : ∀ t : State, t.laneLaw → (f t).laneLaw) {t : State}
    (ht : s.taking f = .next t) : t.laneLaw := by
  unfold State.taking at ht
  split_ifs at ht
  · cases ht
    exact hf s hs
  · cases ht
    exact hs

/-- A command whose event leaves the lanes alone keeps the law. -/
theorem laneLaw_takingBeside {f : State → State} (hf : ∀ t : State, (f t).lanes = t.lanes) {t : State}
    (ht : s.taking f = .next t) : t.laneLaw := laneLaw_taking hs (fun u => laneLaw_of_lanes (hf u)) ht

/-- A request command whose owner leaves the lanes alone keeps the law. -/
theorem laneLaw_takingRequest {h : ReqHead} {c : Byte} {chk : Option Status} {own : State → State}
    (ho : ∀ u : State, (own u).lanes = u.lanes) {t : State} (ht : s.taking (fun s => s.request h c chk own) = .next t) :
    t.laneLaw := laneLaw_taking hs (fun _ => laneLaw_requestBeside ho) ht

/-- A request command whose owner keeps the law keeps it. -/
theorem laneLaw_takingOwner {h : ReqHead} {c : Byte} {chk : Option Status} {own : State → State}
    (ho : ∀ u : State, u.laneLaw → (own u).laneLaw) {t : State}
    (ht : s.taking (fun s => s.request h c chk own) = .next t) : t.laneLaw :=
  laneLaw_taking hs (fun _ => laneLaw_request ho) ht

/-- Every command keeps that an IDLE lane has an empty queue (R40). -/
theorem laneLaw_exec {c : Instr} {t : State} (ht : exec c s = .next t) : t.laneLaw := by
  cases c with
  | groupOpen h g => exact laneLaw_takingRequest hs (fun u => lanes_ownGroupOpen _ u _) ht
  | groupAdd h g r => exact laneLaw_takingRequest hs (fun u => lanes_ownGroupAdd _ u _ _) ht
  | groupClose h g => exact laneLaw_takingRequest hs (fun u => lanes_ownGroupClose _ u _) ht
  | groupDrop h g => exact laneLaw_takingRequest hs (fun u => lanes_ownGroupDrop _ u _) ht
  | groupEdit h g i v => exact laneLaw_takingRequest hs (fun u => lanes_ownGroupEdit _ u _ _ _) ht
  | groupQuery h g => exact laneLaw_takingRequest hs (fun u => lanes_ownGroupQuery _ u _) ht
  | groupRead h g f => exact laneLaw_takingRequest hs (fun u => lanes_ownGroupRead _ u _ _) ht
  | groupArm h g l x m => exact laneLaw_takingRequest hs (fun u => lanes_ownGroupArm _ u _ _ _ _) ht
  | groupDisarm h g => exact laneLaw_takingRequest hs (fun u => lanes_ownGroupDisarm _ u _) ht
  | groupApply h g => exact laneLaw_takingOwner hs (fun _ hu => laneLaw_ownGroupApply _ hu _) ht
  | groupAbort h g => exact laneLaw_takingOwner hs (fun _ hu => laneLaw_ownGroupAbort _ hu _) ht
  | targetSet h x r => exact laneLaw_takingRequest hs (fun u => lanes_ownTargetSet _ u _ _) ht
  | targetQuery h x => exact laneLaw_takingRequest hs (fun u => lanes_ownTargetQuery _ u _) ht
  | targetClear h x => exact laneLaw_takingRequest hs (fun u => lanes_ownTargetClear _ u _) ht
  | targetRead h x r => exact laneLaw_takingOwner hs (fun _ hu => laneLaw_ownTargetRead _ hu _ _) ht
  | laneSet h n r => exact laneLaw_takingOwner hs (fun _ hu => laneLaw_ownLaneSet _ hu _ _) ht
  | laneQuery h n => exact laneLaw_takingRequest hs (fun u => lanes_ownLaneQuery _ u _) ht
  | syncSet h l e w => exact laneLaw_takingRequest hs (fun u => lanes_ownSyncSet _ u _ _ _) ht
  | syncPulse h l => exact laneLaw_takingOwner hs (fun _ hu => laneLaw_ownSyncPulse _ hu _) ht
  | syncQuery h l => exact laneLaw_takingRequest hs (fun u => lanes_ownSyncQuery _ u _) ht
  | loopSet h n r => exact laneLaw_takingRequest hs (fun u => lanes_ownLoopSet _ u _ _) ht
  | loopStart h n => exact laneLaw_takingOwner hs (fun _ hu => laneLaw_ownLoopStart _ hu _) ht
  | loopStop h n => exact laneLaw_takingOwner hs (fun _ hu => laneLaw_ownLoopStop _ hu _) ht
  | loopQuery h n => exact laneLaw_takingRequest hs (fun u => lanes_ownLoopQuery _ u _) ht
  | slotSave h g x l => exact laneLaw_takingRequest hs (fun u => lanes_ownSlotSave _ u _ _ _) ht
  | slotLoad h x g => exact laneLaw_takingRequest hs (fun u => lanes_ownSlotLoad _ u _ _) ht
  | slotErase h x => exact laneLaw_takingRequest hs (fun u => lanes_ownSlotErase _ u _) ht
  | slotProtect h x => exact laneLaw_takingRequest hs (fun u => lanes_ownSlotProtect _ u _) ht
  | slotUnprotect h x => exact laneLaw_takingRequest hs (fun u => lanes_ownSlotUnprotect _ u _) ht
  | slotLock h x => exact laneLaw_takingRequest hs (fun u => lanes_ownSlotLock _ u _) ht
  | slotFreeze h => exact laneLaw_takingRequest (own := ownSlotFreeze h.tag) hs (fun _ => by rfl) ht
  | slotList h => exact laneLaw_takingRequest (own := ownSlotList h.tag) hs (fun _ => by rfl) ht
  | setupSave h => exact laneLaw_takingRequest hs (fun u => lanes_accept u _ _) ht
  | setupStart h d => exact laneLaw_takingRequest hs (fun u => lanes_ownSetupStart _ u _) ht
  | setupQuery h => exact laneLaw_takingRequest (own := ownSetupQuery h.tag) hs (fun _ => by rfl) ht
  | partIdent h => exact laneLaw_takingRequest (own := ownPartIdent h.tag) hs (fun _ => by rfl) ht
  | partStatus h => exact laneLaw_takingRequest (own := ownPartStatus h.tag) hs (fun _ => by rfl) ht
  | partResetFull h => exact laneLaw_takingRequest (own := ownPartResetFull h.tag) hs (fun _ => by rfl) ht
  | partResetSequencer h =>
    exact laneLaw_takingOwner (own := ownPartResetSequencer h.tag) hs (fun _ _ => laneLaw_ownPartResetSequencer h.tag) ht
  | partResetLanes h =>
    exact laneLaw_takingOwner (own := ownPartResetLanes h.tag) hs (fun _ _ => laneLaw_ownPartResetLanes h.tag) ht
  | partResetLoops h =>
    exact laneLaw_takingOwner (own := ownPartResetLoops h.tag) hs (fun _ => laneLaw_ownPartResetLoops h.tag) ht
  | uartFramingError => exact laneLaw_takingBeside (f := framingError) hs (fun _ => by rfl) ht
  | gapTimerExpiry => exact laneLaw_taking hs (fun _ hu => laneLaw_gapExpired hu) ht
  | transmitEnd x => exact laneLaw_taking hs (fun _ hu => laneLaw_transmitEnd hu x) ht
  | powerOn x => cases ht; exact laneLaw_powerOn x
  | powerFail => cases ht; exact laneLaw_reset rfl
  | resetnAssert => cases ht; exact laneLaw_reset rfl
  | resetnRelease x => cases ht; exact laneLaw_resetnRelease hs x
  | directoryRebuild => exact laneLaw_taking hs (fun _ hu => laneLaw_directoryRebuild hu) ht
  | setupAreaRead => exact laneLaw_taking hs (fun _ hu => laneLaw_setupAreaRead hu) ht
  | syncLevelChange l x =>
    exact laneLaw_takingBeside (s := s.setPinLevel l x) (by cases l <;> exact hs) (fun u => State.setLine_lanes u l _) ht
  | syncFilterSettled l => exact laneLaw_taking hs (fun _ hu => laneLaw_filterSettled hu l) ht
  | windowExpiry l => exact laneLaw_takingBeside hs (fun u => lanes_closeWindow u l) ht
  | transactionEnd l e => exact laneLaw_taking hs (fun _ hu => laneLaw_transactionEnd hu l e) ht
  | clockHoldTimeout l => exact laneLaw_taking hs (fun _ hu => laneLaw_clockHoldTimeout hu l) ht
  | pollGapExpiry l => exact laneLaw_taking hs (fun _ hu => laneLaw_pollGapExpiry hu l) ht
  | waitExpiry l => exact laneLaw_taking hs (fun _ hu => laneLaw_waitExpiry hu l) ht
  | eraseComplete l => exact laneLaw_takingBeside hs (fun u => lanes_eraseComplete l u) ht
  | pageProgramComplete l => exact laneLaw_takingBeside hs (fun u => lanes_pageProgramComplete l u) ht
  | imageReadComplete => exact laneLaw_takingBeside hs lanes_imageReadComplete ht
  | fuseProgramComplete b => exact laneLaw_takingBeside hs (fun u => lanes_fuseProgramComplete b u) ht
  | suspendEffect => exact laneLaw_takingBeside hs lanes_suspendEffect ht
  | resumeGuardExpiry => exact laneLaw_takingBeside hs lanes_resumeGuardExpiry ht
  | characterArrival c => exact laneLaw_taking hs (fun _ hu => laneLaw_characterArrival hu c) ht

end

/-- Settles O33: command by command; on an empty queue nothing but a start's last step is taken. -/
theorem idleLaneHasEmptyQueue : Obligations.IdleLaneHasEmptyQueue := by
  intro s t hs ht
  unfold step at ht
  split at ht
  · cases ht
    exact laneLaw_of_lanes (lanes_idled s) hs
  · rename_i c q _
    have hq : (s.withPending q).laneLaw := hs
    exact laneLaw_exec hq ht

end Sys2Proof.Machine
end

section
/-! SUPPORT. PART.RESET LANES: the reports of a cut in their order (R53, R57). -/

namespace Sys2Proof.Machine

/-! ## The jobs reported, in the order of their reports -/

/-- The jobs that the lanes report when they come up in this order, each with its lane. -/
def State.cutReported (k : Nat) (s : State) : List (Fin 4) → List (Fin 4 × Job)
  | [] => []
  | l :: order => (s.lane l).jobs.head?.toList.map (l, ·) ++ (State.cutNext k s l).cutReported k order

/-- Each lane reports its own jobs in their order; what it has not reported is left to it. -/
theorem cutReported_jobs (k : Nat) (order : List (Fin 4)) (s : State) (l : Fin 4) :
    ((s.cutReported k order).filter (·.1 == l)).map (·.2) ++ ((order.foldl (State.cutNext k) s).lane l).jobs =
      (s.lane l).jobs := by
  induction order generalizing s with
  | nil => rfl
  | cons m order ih =>
    have rest := ih (State.cutNext k s m)
    rw [lane_cutNext] at rest
    rw [State.cutReported, List.filter_append, List.map_append, List.append_assoc, List.foldl_cons, rest]
    by_cases hm : m = l
    · subst hm
      rw [if_pos rfl, Lane.afterCut_jobs]
      cases (s.lane m).jobs <;> simp
    · cases (s.lane m).jobs <;> simp [hm]

/-! ## What the reports do beside the lanes and the loops -/

/-- The state with other lanes and loops. -/
def State.withLanes (s : State) (x : Table Lane 4) (y : Table LoopEntry 4) : State := { s with lanes := x, tlu := y }

/-- What a report of a job does depends on neither the lanes nor the loops, and leaves them alone. -/
theorem cutJob_withLanes (s : State) (x : Table Lane 4) (y : Table LoopEntry 4) (j : Job) :
    (s.withLanes x y).cutJob j = (s.cutJob j).withLanes x y := by
  cases j with
  | record g i r =>
    have account : (s.withLanes x y).account g = s.account g := rfl
    simp only [State.cutJob, State.recordEnd, account]
    split_ifs <;> rfl
  | loop n kd t reg v => rfl
  | read tag t reg => rfl

theorem foldl_cutJob_withLanes (jobs : List Job) (s : State) (x : Table Lane 4) (y : Table LoopEntry 4) :
    jobs.foldl State.cutJob (s.withLanes x y) = (jobs.foldl State.cutJob s).withLanes x y := by
  induction jobs generalizing s with
  | nil => rfl
  | cons j jobs ih => rw [List.foldl_cons, cutJob_withLanes, ih, List.foldl_cons]

/-- The hand-on of a group write changes the loops only (R122). -/
theorem handOn_withLanes (s : State) (t : Fin 16) (w : List (Half × Val)) :
    ∃ y, s.handOn t w = s.withLanes s.lanes y := by
  refine foldl_keeps (P := fun u => ∃ y, u = s.withLanes s.lanes y) (fun u n hu => ?_) _ s ⟨s.tlu, rfl⟩
  obtain ⟨y, rfl⟩ := hu
  simp only [State.adopt]
  split
  · exact ⟨y, rfl⟩
  · split_ifs
    · exact ⟨_, rfl⟩
    · exact ⟨y, rfl⟩

theorem cancelLoops_withLanes (s : State) : ∃ y, s.cancelLoops = s.withLanes s.lanes y := by
  refine foldl_keeps (P := fun u => ∃ y, u = s.withLanes s.lanes y) (fun u n hu => ?_) _ s ⟨s.tlu, rfl⟩
  obtain ⟨y, rfl⟩ := hu
  exact ⟨_, rfl⟩

/-- The report of a job in flight is that of the job, but for the loops (R86). -/
theorem cutFlight_withLanes (s : State) (f : Flight) : ∃ x y, s.cutFlight f = (s.cutJob f.job).withLanes x y := by
  unfold State.cutFlight
  split
  · rename_i g i t reg st vs hj
    obtain ⟨y, hy⟩ := handOn_withLanes (s.recordEnd g i .withdrawn) t ((Record.scatter t reg st vs).writes f.item)
    exact ⟨_, y, by rw [hy, hj]; rfl⟩
  all_goals exact ⟨_, _, rfl⟩

theorem cutJob_setLane (s : State) (l : Fin 4) (x : Lane) (j : Job) :
    ∃ y, (s.setLane l x).cutJob j = (s.cutJob j).withLanes y s.tlu :=
  ⟨_, (congrArg (State.cutJob · j) (show s.setLane l x = s.withLanes (s.setLane l x).lanes s.tlu from rfl)).trans
    (cutJob_withLanes s _ _ j)⟩

/-! A lane's next report: of the job in flight, else of the queue's head, else none. -/

theorem cutNext_flight {k : Nat} {s : State} {l : Fin 4} {f : Flight} (hf : (s.lane l).flight = some f) :
    State.cutNext k s l = (s.setLane l ((s.lane l).afterCut (Config.cutPlace k l.val))).cutFlight f := by
  simp only [State.cutNext, Lane.afterCut, hf]

theorem cutNext_head {k : Nat} {s : State} {l : Fin 4} {j : Job} {q : List Job} (hf : (s.lane l).flight = none)
    (hq : (s.lane l).queue = j :: q) :
    State.cutNext k s l = (s.setLane l ((s.lane l).afterCut (Config.cutPlace k l.val))).cutJob j := by
  simp only [State.cutNext, Lane.afterCut, hf, hq]

theorem cutNext_idle {k : Nat} {s : State} {l : Fin 4} (hf : (s.lane l).flight = none) (hq : (s.lane l).queue = []) :
    State.cutNext k s l = s := by
  simp only [State.cutNext, hf, hq]

/-- It is the report of the lane's first job, but for the lanes and the loops. -/
theorem cutNext_withLanes (k : Nat) (s : State) (l : Fin 4) :
    ∃ x y, State.cutNext k s l = ((s.lane l).jobs.head?.toList.foldl State.cutJob s).withLanes x y := by
  cases hf : (s.lane l).flight with
  | some f =>
    obtain ⟨x, y, h⟩ := cutFlight_withLanes (s.setLane l ((s.lane l).afterCut (Config.cutPlace k l.val))) f
    obtain ⟨y', h'⟩ := cutJob_setLane s l ((s.lane l).afterCut (Config.cutPlace k l.val)) f.job
    exact ⟨x, y, by rw [cutNext_flight hf, h, h', Lane.jobs, hf]; rfl⟩
  | none =>
    cases hq : (s.lane l).queue with
    | cons j q =>
      obtain ⟨y, h⟩ := cutJob_setLane s l ((s.lane l).afterCut (Config.cutPlace k l.val)) j
      exact ⟨y, s.tlu, by rw [cutNext_head hf hq, h, Lane.jobs, hf, hq]; rfl⟩
    | nil => exact ⟨s.lanes, s.tlu, by rw [cutNext_idle hf hq, Lane.jobs, hf, hq]; rfl⟩

/-- The lanes' reports are those of the jobs in the order of their reports, but for the lanes and the loops. -/
theorem foldl_cutNext_withLanes (k : Nat) (order : List (Fin 4)) (s : State) :
    ∃ x y, order.foldl (State.cutNext k) s =
      (((s.cutReported k order).map (·.2)).foldl State.cutJob s).withLanes x y := by
  induction order generalizing s with
  | nil => exact ⟨s.lanes, s.tlu, rfl⟩
  | cons l order ih =>
    obtain ⟨x, y, h⟩ := ih (State.cutNext k s l)
    obtain ⟨x', y', h'⟩ := cutNext_withLanes k s l
    refine ⟨x, y, ?_⟩
    rw [List.foldl_cons, h, State.cutReported, List.map_append, List.map_map, List.foldl_append]
    generalize ((State.cutNext k s l).cutReported k order).map (·.2) = jobs
    rw [h', foldl_cutJob_withLanes]
    have first : (s.lane l).jobs.head?.toList.map ((·.2) ∘ (l, ·)) = (s.lane l).jobs.head?.toList := List.map_id _
    rw [first]
    rfl

/-! ## The reset as a list of reports -/

/-- The jobs that a reset of the lanes reports. -/
def State.cutAll (s : State) : List (Fin 4 × Job) := s.cutAccounts.cutReported s.fresh s.cutOrder

/-- Beside the lanes, the loops and the counter of free values, a reset of the lanes is its reports (R57, R99). -/
theorem cutLanes_withLanes (s : State) :
    ∃ x y, s.cutLanes = (((s.cutAll.map (·.2)).foldl State.cutJob s.cutAccounts).withLanes x y).drawn := by
  obtain ⟨x, y, h⟩ := foldl_cutNext_withLanes s.fresh s.cutOrder s.cutAccounts
  obtain ⟨y', h'⟩ := cancelLoops_withLanes (s.cutOrder.foldl (State.cutNext s.fresh) s.cutAccounts)
  exact ⟨x, y', by rw [State.cutLanes, h', h]; rfl⟩

/-- After the last report no lane has a job (R57). -/
theorem foldl_cutOrder_jobs (s : State) (l : Fin 4) :
    ((s.cutOrder.foldl (State.cutNext s.fresh) s.cutAccounts).lane l).jobs = [] := by
  have h := cutLanes_jobs s l
  rwa [State.lane, lanes_of_besideReports (besideReports_cutLanes s)] at h

theorem lane_cutAccounts (s : State) (l : Fin 4) : s.cutAccounts.lane l = s.lane l := by
  rw [State.lane, lanes_of_besideReports (besideReports_cutAccounts s)]
  rfl

/-- Every lane reports all its jobs, in their order (R57). -/
theorem cutAll_jobs (s : State) (l : Fin 4) : (s.cutAll.filter (·.1 == l)).map (·.2) = (s.lane l).jobs := by
  have h := cutReported_jobs s.fresh s.cutOrder s.cutAccounts l
  rwa [foldl_cutOrder_jobs, List.append_nil, lane_cutAccounts] at h

end Sys2Proof.Machine
end

section
/-! SUPPORT. PART.RESET LANES: the reports of records, their groups and their notices (R57, R84, R88, R99). -/

namespace Sys2Proof.Machine

/-! ## The report of a record withdrawn (R84, R88) -/

section
variable {s : State} {g : Fin 8} (i : Nat)

/-- The account of a group with one record fewer pending. -/
def Account.oneLess (a : Account) : Account := { a with pending := a.pending - 1 }

theorem oneLess_zero {a : Account} (h : a.pending = 0) : a.oneLess = a := by
  obtain ⟨pending, abortTaken, cut⟩ := a
  cases h
  rfl

/-- A group with one record more withdrawn. -/
def GroupEntry.oneWithdrawn (x : GroupEntry) : GroupEntry := { x with withdrawn := x.withdrawn + 1 }

/-- The report, before the group completes. -/
def State.withdrawOne (s : State) (g : Fin 8) : State :=
  (s.setGroup g (s.group g).oneWithdrawn).setAccount g (s.account g).oneLess

theorem withdrawn_none (h : (s.account g).pending = 0) : s.recordEnd g i .withdrawn = s := if_pos h

theorem withdrawn_last (h : (s.account g).pending = 1) :
    s.recordEnd g i .withdrawn = (s.withdrawOne g).complete g := by
  rw [State.recordEnd, if_neg (by omega), if_pos h]
  rfl

theorem withdrawn_more {p : Nat} (h : (s.account g).pending = p + 2) :
    s.recordEnd g i .withdrawn = s.withdrawOne g := by
  rw [State.recordEnd, if_neg (by omega), if_neg (by omega)]
  rfl

end

theorem group_complete_other (s : State) {g g' : Fin 8} (h : g ≠ g') : (s.complete g).group g' = s.group g' :=
  (State.group_setGroup s g g' _).trans (if_neg h)

/-- A group that completes under a reset that cut it, or after an abort (R88, R100). -/
theorem group_complete_cut (s : State) {g : Fin 8} (h : (s.account g).cut = true) :
    (s.complete g).group g =
      { s.group g with
        lastOutcome := if (s.account g).abortTaken then .aborted else .cut
        state := if (s.armEntry g).isSome then .armed else .ready } := by
  have outcome : launchOutcome (s.account g) (s.group g) = if (s.account g).abortTaken then .aborted else .cut := by
    rw [launchOutcome, if_pos h]
  rw [← outcome]
  exact State.group_setGroup_self s g _

theorem group_withdrawOne (s : State) (g g' : Fin 8) :
    (s.withdrawOne g).group g' = if g = g' then (s.group g).oneWithdrawn else s.group g' :=
  State.group_setGroup s g g' _

theorem account_withdrawOne (s : State) (g g' : Fin 8) :
    (s.withdrawOne g).account g' = if g = g' then (s.account g).oneLess else s.account g' :=
  State.account_setAccount _ g g' _

theorem account_complete (s : State) (g g' : Fin 8) : (s.complete g).account g' = s.account g' := rfl

/-- A report is counted in the account of its group. -/
theorem account_cutJob (s : State) (j : Job) (g : Fin 8) :
    (s.cutJob j).account g = if j.ofGroup g then (s.account g).oneLess else s.account g := by
  cases j with
  | loop n kd t reg v => rfl
  | read tag t reg => rfl
  | record g' i r =>
    have counted : (s.withdrawOne g').account g =
        if (Job.record g' i r).ofGroup g then (s.account g).oneLess else s.account g := by
      rw [account_withdrawOne]
      by_cases h : g' = g
      · simp [Job.ofGroup, h]
      · simp [Job.ofGroup, h]
    match hp : (s.account g').pending with
    | 0 =>
      rw [State.cutJob, withdrawn_none i hp]
      by_cases h : g' = g
      · subst h
        simp [Job.ofGroup, oneLess_zero hp]
      · simp [Job.ofGroup, h]
    | 1 => rw [State.cutJob, withdrawn_last i hp, account_complete, counted]
    | p + 2 => rw [State.cutJob, withdrawn_more i hp, counted]

/-- The arm list is left alone (R57). -/
theorem arm_cutJob (s : State) (j : Job) : (s.cutJob j).sau.arm = s.sau.arm := by
  cases j with
  | loop n kd t reg v => rfl
  | read tag t reg => rfl
  | record g i r =>
    simp only [State.cutJob, State.recordEnd]
    split_ifs <;> rfl

/-- A report leaves the groups of other records alone. -/
theorem group_cutJob_other (s : State) {j : Job} {g : Fin 8} (h : j.ofGroup g = false) :
    (s.cutJob j).group g = s.group g := by
  cases j with
  | loop n kd t reg v => rfl
  | read tag t reg => rfl
  | record g' i r =>
    have hg : g' ≠ g := by simpa [Job.ofGroup] using h
    have counted : (s.withdrawOne g').group g = s.group g := (group_withdrawOne s g' g).trans (if_neg hg)
    match hp : (s.account g').pending with
    | 0 => rw [State.cutJob, withdrawn_none i hp]
    | 1 => rw [State.cutJob, withdrawn_last i hp, group_complete_other _ hg, counted]
    | p + 2 => rw [State.cutJob, withdrawn_more i hp, counted]

/-- The records and the pins of a group outlast its launch's end (R3, R88). -/
theorem records_cutJob (s : State) (j : Job) (g : Fin 8) :
    ((s.cutJob j).group g).records = (s.group g).records ∧ ((s.cutJob j).group g).pins = (s.group g).pins := by
  by_cases h : j.ofGroup g = true
  · obtain ⟨i, r, rfl⟩ := (ofGroup_iff g j).1 h
    have counted : (s.withdrawOne g).group g = (s.group g).oneWithdrawn :=
      (group_withdrawOne s g g).trans (if_pos rfl)
    match hp : (s.account g).pending with
    | 0 => rw [State.cutJob, withdrawn_none i hp]; exact ⟨rfl, rfl⟩
    | 1 =>
      have completed : ((s.withdrawOne g).complete g).group g = _ := State.group_setGroup_self _ g _
      rw [State.cutJob, withdrawn_last i hp, completed, counted]
      exact ⟨rfl, rfl⟩
    | p + 2 => rw [State.cutJob, withdrawn_more i hp, counted]; exact ⟨rfl, rfl⟩
  · rw [group_cutJob_other s (by simpa using h)]
    exact ⟨rfl, rfl⟩

/-! ## The rest of a launch under a reset (R88, R99) -/

/-- A group after the last `p` records of its launch are reported withdrawn under a reset. -/
def GroupEntry.cutDown (x : GroupEntry) (p : Nat) (aborted armed : Bool) : GroupEntry :=
  if p = 0 then x
  else { x with
    withdrawn := x.withdrawn + p
    lastOutcome := if aborted then .aborted else .cut
    state := if armed then .armed else .ready }

/-- A record's report is the first of those left to its launch. -/
theorem cutDown_cutJob {s : State} {j : Job} {g : Fin 8} (hj : j.ofGroup g = true) {p : Nat}
    (hp : (s.account g).pending = p + 1) (hc : (s.account g).cut = true) :
    ((s.cutJob j).group g).cutDown p (s.account g).abortTaken (s.armEntry g).isSome =
      (s.group g).cutDown (p + 1) (s.account g).abortTaken (s.armEntry g).isSome := by
  obtain ⟨i, r, rfl⟩ := (ofGroup_iff g j).1 hj
  have counted : (s.withdrawOne g).group g = (s.group g).oneWithdrawn := (group_withdrawOne s g g).trans (if_pos rfl)
  have account : (s.withdrawOne g).account g = (s.account g).oneLess := (account_withdrawOne s g g).trans (if_pos rfl)
  match p with
  | 0 =>
    rw [State.cutJob, withdrawn_last i hp, group_complete_cut _ (by rw [account]; exact hc), counted, account]
    rfl
  | p + 1 =>
    rw [State.cutJob, withdrawn_more i hp, counted]
    simp only [GroupEntry.cutDown, GroupEntry.oneWithdrawn, Nat.succ_ne_zero, if_false, Nat.add_assoc, Nat.add_comm 1]

theorem pending_cutJob {s : State} {j : Job} {jobs : List Job} {g : Fin 8}
    (h : (s.account g).pending = (j :: jobs).countP (Job.ofGroup g)) :
    ((s.cutJob j).account g).pending = jobs.countP (Job.ofGroup g) := by
  rw [account_cutJob]
  cases hj : j.ofGroup g with
  | true =>
    rw [List.countP_cons_of_pos hj] at h
    exact Nat.sub_eq_of_eq_add h
  | false => rwa [List.countP_cons_of_neg (by simp [hj])] at h

/-- When the jobs are all that a launch waits for, their reports end it (R57, R84). -/
theorem pending_cutJobs {s : State} {jobs : List Job} {g : Fin 8}
    (h : (s.account g).pending = jobs.countP (Job.ofGroup g)) :
    ((jobs.foldl State.cutJob s).account g).pending = 0 := by
  induction jobs generalizing s with
  | nil => exact h
  | cons j jobs ih => exact ih (pending_cutJob h)

/-- The jobs are all that the group's launch still waits for, and the launch, if there is one, is cut (R84, R99). -/
structure State.CutPending (s : State) (jobs : List Job) (g : Fin 8) : Prop where
  pending : (s.account g).pending = jobs.countP (Job.ofGroup g)
  cut : (s.account g).pending ≠ 0 → (s.account g).cut = true

theorem cutPending_cutJob {s : State} {j : Job} {jobs : List Job} {g : Fin 8} (h : s.CutPending (j :: jobs) g) :
    (s.cutJob j).CutPending jobs g where
  pending := pending_cutJob h.pending
  cut := by
    have hc := h.cut
    rw [account_cutJob]
    split_ifs with hj
    · exact fun hn => hc fun h0 => hn (by simp [Account.oneLess, h0])
    · exact hc

/-- A group is then as the last of its reports left it. -/
theorem group_cutJobs {s : State} {jobs : List Job} {g : Fin 8} (h : s.CutPending jobs g) :
    (jobs.foldl State.cutJob s).group g =
      (s.group g).cutDown (s.account g).pending (s.account g).abortTaken (s.armEntry g).isSome := by
  induction jobs generalizing s with
  | nil => rw [h.pending]; rfl
  | cons j jobs ih =>
    have armed : (s.cutJob j).armEntry g = s.armEntry g := by rw [State.armEntry, arm_cutJob]; rfl
    rw [List.foldl_cons, ih (cutPending_cutJob h), account_cutJob, armed]
    cases hj : j.ofGroup g with
    | true =>
      have hp := h.pending
      rw [List.countP_cons_of_pos hj] at hp
      rw [hp, ← cutDown_cutJob hj hp (h.cut (by omega))]
      simp [Account.oneLess, hp]
    | false => rw [group_cutJob_other s hj]; rfl

/-! ## The notices of the launches that end (R55, R99, R206) -/

/-- The notices that the step has raised are N.DONE. -/
def State.raisedDone (s : State) : Prop := ∀ n ∈ s.hpt.notices.reverse.take s.raised, n.code = 0x01#8

/-- An N.DONE passes no other (R195). -/
theorem passable_done {s : State} (h : s.raisedDone) (payload : List Byte) :
    s.hpt.passable s.raised ⟨0x01#8, payload⟩ = 0 := by
  unfold State.raisedDone at h
  unfold Hpt.passable
  cases hl : s.hpt.notices.reverse.take s.raised with
  | nil => rfl
  | cons m l =>
    rw [hl] at h
    have hm : Notice.mayPass ⟨0x01#8, payload⟩ m = false := by
      simp [Notice.mayPass, h m (List.mem_cons_self ..)]
    rw [List.takeWhile_cons_of_neg (by simp [hm])]
    rfl

theorem notices_cutRaised (x : Hpt) : x.cutRaised.notices = x.notices := by
  unfold Hpt.cutRaised
  split_ifs <;> rfl

/-- Under a reset it joins the tail of the queue, with the reset's mark (R206). -/
theorem notify_done {s : State} (h : s.raisedDone) (payload : List Byte) :
    (s.notify 0x01#8 payload true).hpt = (s.hpt.join ⟨0x01#8, payload⟩ 0).cutRaised := by
  simp only [State.notify, passable_done h, atMost, if_true]

theorem raisedDone_notify {s : State} (h : s.raisedDone) (payload : List Byte) :
    (s.notify 0x01#8 payload true).raisedDone := by
  have raised : (s.notify 0x01#8 payload true).raised =
      if s.hpt.notices.length < Config.maxNotices then s.raised + 1 else s.raised := rfl
  unfold State.raisedDone
  rw [raised, notify_done h, notices_cutRaised, join_zero]
  by_cases room : s.hpt.notices.length < Config.maxNotices
  · rw [if_pos room, if_pos room]
    simp only [List.reverse_append, List.reverse_singleton, List.singleton_append, List.take_succ_cons,
      List.forall_mem_cons]
    exact ⟨trivial, h⟩
  · rw [if_neg room, if_neg room]
    exact h

theorem notices_answer (x : Hpt) (tag : Byte) (body : List Byte) (full : Bool) :
    (x.answer tag body full).notices = x.notices := by
  unfold Hpt.answer
  split <;> rfl

theorem raisedDone_cutJob {s : State} {j : Job} {jobs : List Job} (hc : ∀ g, s.CutPending (j :: jobs) g) (h : s.raisedDone) :
    (s.cutJob j).raisedDone := by
  cases j with
  | loop n kd t reg v => exact h
  | read tag t reg =>
    have notices : (s.cutJob (.read tag t reg)).hpt.notices = s.hpt.notices := notices_answer ..
    unfold State.raisedDone
    rw [notices]
    exact h
  | record g i r =>
    match hp : (s.account g).pending with
    | 0 => rwa [State.cutJob, withdrawn_none i hp]
    | 1 =>
      have cut : ((s.withdrawOne g).account g).cut = true := by
        rw [account_withdrawOne, if_pos rfl]
        exact (hc g).cut (by omega)
      rw [State.cutJob, withdrawn_last i hp, State.complete, cut]
      exact raisedDone_notify (s := ((s.withdrawOne g).setGroup g _).leaveWindows g) h _
    | p + 2 =>
      rw [State.cutJob, withdrawn_more i hp]
      exact h

/-- The N.DONE of a launch, as its group stands. -/
def doneOf (group : Fin 8 → GroupEntry) (g : Fin 8) : Notice := ⟨0x01#8, natByte g.val :: (group g).launchBytes⟩

/-- The report that ends a launch queues its N.DONE (R57, R99). -/
theorem hpt_cutJob_last {s : State} {g : Fin 8} (h : s.raisedDone) (hp : (s.account g).pending = 1)
    (hc : (s.account g).cut = true) (i : Nat) (r : Record) :
    (s.cutJob (.record g i r)).hpt = (s.hpt.join (doneOf (s.cutJob (.record g i r)).group g) 0).cutRaised := by
  have cut : ((s.withdrawOne g).account g).cut = true := by
    rw [account_withdrawOne, if_pos rfl]
    exact hc
  rw [State.cutJob, withdrawn_last i hp, doneOf, group_complete_cut _ cut, State.complete, cut]
  refine (notify_done (s := ((s.withdrawOne g).setGroup g _).leaveWindows g) h _).trans ?_
  rw [launchOutcome, if_pos cut]
  rfl

/-- The Host Port after the reports (R55, R57, R99, R206). -/
theorem hpt_cutJobs {s : State} {jobs : List Job} (hc : ∀ g, s.CutPending jobs g) (h : s.raisedDone) :
    (jobs.foldl State.cutJob s).hpt = cutReports (doneOf (jobs.foldl State.cutJob s).group) s.hpt jobs := by
  induction jobs generalizing s with
  | nil => rfl
  | cons j jobs ih =>
    have rest := ih (fun g => cutPending_cutJob (hc g)) (raisedDone_cutJob hc h)
    rw [List.foldl_cons, rest]
    cases j with
    | loop n kd t reg v => rfl
    | read tag t reg => rfl
    | record g i r =>
      have left := (hc g).pending
      rw [List.countP_cons_of_pos (by simp [Job.ofGroup])] at left
      have cut := (hc g).cut (by omega)
      rw [cutReports]
      by_cases more : jobs.any (Job.ofGroup g) = true
      · rw [if_pos more]
        have : jobs.countP (Job.ofGroup g) ≠ 0 := by
          simpa [List.countP_eq_zero] using more
        obtain ⟨p, hp⟩ := Nat.exists_eq_succ_of_ne_zero this
        rw [hp] at left
        rw [State.cutJob, withdrawn_more i left]
        rfl
      · rw [if_neg more]
        have none : jobs.countP (Job.ofGroup g) = 0 := by
          simpa [List.countP_eq_zero] using more
        rw [none] at left
        have done := hpt_cutJob_last h left cut i r
        have kept : (jobs.foldl State.cutJob (s.cutJob (.record g i r))).group g = (s.cutJob (.record g i r)).group g := by
          have hp := (cutPending_cutJob (hc g)).pending
          rw [group_cutJobs (cutPending_cutJob (hc g)), hp, none]
          rfl
        rw [done]
        simp only [doneOf, kept]

end Sys2Proof.Machine
end

section
/-! SUPPORT. PART.RESET LANES: the lanes' last transactions, the loops, and the accounts at its start (R57, R86, R99,
R122, R126). -/

namespace Sys2Proof.Machine

/-! ## The last transaction of a lane (R57) -/

/-- A report leaves what a cut makes of the lane's last transaction. -/
theorem Lane.afterCut_cutBus (x : Lane) (p : Nat) : (x.afterCut p).cutBus p = x.cutBus p := by
  obtain ⟨settings, queue, flight, bus⟩ := x
  cases flight with
  | some f => rfl
  | none => cases queue <;> rfl

/-- A lane that has reported has no transaction in flight. -/
theorem Lane.afterCut_flight (x : Lane) (p : Nat) : (x.afterCut p).flight = none := by
  obtain ⟨settings, queue, flight, bus⟩ := x
  cases flight with
  | some f => rfl
  | none => cases queue <;> rfl

theorem cutLanes_lanes (s : State) :
    s.cutLanes.lanes = (s.cutOrder.foldl (State.cutNext s.fresh) s.cutAccounts).lanes :=
  lanes_of_besideReports (besideReports_cutLanes s)

/-- The last transaction of a lane after a reset: as before, or the one in flight cut (R57). -/
theorem cutLanes_bus (s : State) (l : Fin 4) :
    (s.cutLanes.lane l).bus = (s.lane l).cutBus (Config.cutPlace s.fresh l.val) := by
  have kept := foldl_keeps (f := State.cutNext s.fresh)
    (P := fun t => (t.lane l).cutBus (Config.cutPlace s.fresh l.val) = (s.lane l).cutBus (Config.cutPlace s.fresh l.val))
    (fun t m ht => by
      rw [lane_cutNext]
      split_ifs with hm
      · rw [← ht, hm, Lane.afterCut_cutBus]
      · exact ht) s.cutOrder s.cutAccounts (by rw [lane_cutAccounts])
  have idle := (Lane.jobs_eq_nil (cutLanes_jobs s l)).1
  have after : (s.cutLanes.lane l).cutBus (Config.cutPlace s.fresh l.val) =
      (s.lane l).cutBus (Config.cutPlace s.fresh l.val) := by
    rw [State.lane, cutLanes_lanes]
    exact kept
  rwa [Lane.cutBus, idle] at after

/-- A cut transaction (R57). -/
theorem cutWire_eq (settings : LaneSettings) (c : TargetCfg) (w : List BusSym) (k : Nat) :
    cutWire settings c w k = begunWire k w ++ (if settings.isI2c = true then [BusSym.release, BusSym.stop]
      else [BusSym.releaseSelect (decide (c.address = .selectB))]) := by
  rw [cutWire]
  cases settings with
  | i2c _ => rfl
  | spi _ _ =>
    have select : c.address.isSelectB = decide (c.address = .selectB) := by rw [isSelectB_eq]; rfl
    rw [LaneSettings.cutEnd, select]
    rfl

/-! ## What a loop adopts (R86, R122) -/

/-- The writes of the lane's job in flight that a loop looks at: the finished items of a SCATTER to its output target. -/
def LoopEntry.written (x : LoopEntry) (f : Flight) : List (Half × Val) :=
  match f.job with
  | .record _ _ (.scatter t reg st vs) =>
    if t = x.cfg.outTarget then (vs.take f.item).mapIdx fun k v => (st.register reg k, v) else []
  | _ => []

/-- What a loop adopts, if it runs, of a lane whose job in flight is cut. -/
def LoopEntry.adoption (x : LoopEntry) (y : Lane) : Option Val :=
  lastWritten x.cfg.outReg (y.flight.toList.flatMap x.written)

/-- A loop after it adopts, but for `stale`. -/
def LoopEntry.adopting (x : LoopEntry) : Option Val → LoopEntry
  | none => x
  | some v => if x.state.running then { x with output := v, state := .tracking } else x

theorem adopting_run {x : LoopEntry} (h : x.state.running = true) (v : Val) :
    x.adopting (some v) = { x with output := v, state := .tracking } := if_pos h

theorem adopting_rest {x : LoopEntry} (h : x.state.running = false) (o : Option Val) : x.adopting o = x := by
  cases o with
  | none => rfl
  | some v => exact if_neg (by simp [h])

theorem adopting_cfg (x : LoopEntry) (o : Option Val) : (x.adopting o).cfg = x.cfg := by
  cases o with
  | none => rfl
  | some v =>
    rw [LoopEntry.adopting]
    split_ifs <;> rfl

theorem adoption_adopting (x : LoopEntry) (o : Option Val) (y : Lane) : (x.adopting o).adoption y = x.adoption y := by
  have written : (x.adopting o).written = x.written := by
    funext f
    simp only [LoopEntry.written, adopting_cfg]
  rw [LoopEntry.adoption, adopting_cfg, written, LoopEntry.adoption]

/-- The last adoption counts. -/
theorem adopting_adopting (x : LoopEntry) (o : Option Val) (v : Val) :
    (x.adopting o).adopting (some v) = x.adopting (some v) := by
  cases h : x.state.running with
  | false => rw [adopting_rest h]
  | true =>
    cases o with
    | none => rfl
    | some u => rw [adopting_run h, adopting_run h, adopting_run (by rfl)]

theorem adoption_idle (x : LoopEntry) {y : Lane} (h : y.flight = none) : x.adoption y = none := by
  rw [LoopEntry.adoption, h]
  rfl

theorem cancelled_run {x : LoopEntry} (h : x.state.running = true) :
    x.cancelled = { x with cycle := .none, stale := false, jobsOut := 0 } := if_pos h

theorem cancelled_rest {x : LoopEntry} (h : x.state.running = false) : x.cancelled = { x with jobsOut := 0 } :=
  if_neg (by simp [h])

theorem cancelled_cfg (x : LoopEntry) : x.cancelled.cfg = x.cfg := by
  unfold LoopEntry.cancelled
  split_ifs <;> rfl

theorem cancelled_state (x : LoopEntry) : x.cancelled.state = x.state := by
  unfold LoopEntry.cancelled
  split_ifs <;> rfl

/-- What a hand-on offers a loop (R122). -/
def LoopEntry.offer (x : LoopEntry) (t : Fin 16) (w : List (Half × Val)) : Option Val :=
  if t = x.cfg.outTarget then lastWritten x.cfg.outReg w else none

/-- A loop that runs takes what a hand-on offers it. -/
theorem adopt_offered {s : State} {t : Fin 16} {w : List (Half × Val)} {n : Fin 4} {v : Val}
    (hr : (s.loop n).state.running = true) (hv : (s.loop n).offer t w = some v) :
    ∃ b, s.adopt t w n = s.setLoop n { s.loop n with output := v, state := .tracking, stale := b } := by
  unfold LoopEntry.offer at hv
  split_ifs at hv with ht
  exact ⟨_, by simp only [State.adopt, hv, hr, ht, and_self, if_true]; rfl⟩

/-- A loop that does not run, or is offered nothing, is left alone. -/
theorem adopt_untaken {s : State} {t : Fin 16} {w : List (Half × Val)} {n : Fin 4}
    (h : (s.loop n).state.running = false ∨ (s.loop n).offer t w = none) : s.adopt t w n = s := by
  simp only [State.adopt]
  split
  · rfl
  · rename_i v hv
    refine if_neg fun ⟨hr, ht⟩ => ?_
    rcases h with h | h
    · rw [h] at hr
      cases hr
    · rw [LoopEntry.offer, if_pos ht.symm, hv] at h
      cases h

/-- A loop that takes the hand-on of a group write is, when cancelled, as if it had been cancelled first. -/
theorem cancelled_adopt (s : State) (t : Fin 16) (w : List (Half × Val)) (n m : Fin 4) :
    ((s.adopt t w n).loop m).cancelled =
      if n = m then (s.loop n).cancelled.adopting ((s.loop n).cancelled.offer t w) else (s.loop m).cancelled := by
  have offer : (s.loop n).cancelled.offer t w = (s.loop n).offer t w := by
    rw [LoopEntry.offer, cancelled_cfg, LoopEntry.offer]
  have untaken (h : (s.loop n).cancelled.adopting ((s.loop n).offer t w) = (s.loop n).cancelled) :
      (s.loop m).cancelled =
        if n = m then (s.loop n).cancelled.adopting ((s.loop n).offer t w) else (s.loop m).cancelled := by
    rw [h]
    split_ifs with hm
    · rw [hm]
    · rfl
  rw [offer]
  cases hr : (s.loop n).state.running with
  | false =>
    rw [adopt_untaken (.inl hr)]
    exact untaken (adopting_rest ((congrArg _ (cancelled_state _)).trans hr) _)
  | true =>
    cases hv : (s.loop n).offer t w with
    | none =>
      rw [adopt_untaken (.inr hv), ← hv]
      exact untaken (by rw [hv]; rfl)
    | some v =>
      obtain ⟨b, h⟩ := adopt_offered hr hv
      rw [h, State.loop_setLoop]
      split_ifs with hm
      · rw [cancelled_run (by rfl), cancelled_run hr, adopting_run (by exact hr)]
      · rfl

theorem cancelled_handOn (s : State) (t : Fin 16) (w : List (Half × Val)) (n : Fin 4) :
    ((s.handOn t w).loop n).cancelled = (s.loop n).cancelled.adopting ((s.loop n).cancelled.offer t w) :=
  foldl_upTo (get := fun s n => (s.loop n).cancelled) (f := fun _ x => x.adopting (x.offer t w))
    (fun u i j => cancelled_adopt u t w i j) s n

theorem loop_cutJob (s : State) (j : Job) (n : Fin 4) : (s.cutJob j).loop n = s.loop n := by
  cases j with
  | loop m kd t reg v => rfl
  | read tag t reg => rfl
  | record g i r =>
    simp only [State.cutJob, State.recordEnd]
    split_ifs <;> rfl

/-- The job in flight that is cut hands on to the loops (R86). -/
theorem cancelled_cutFlight (s : State) (f : Flight) (n : Fin 4) :
    ((s.cutFlight f).loop n).cancelled =
      (s.loop n).cancelled.adopting
        (lastWritten (s.loop n).cancelled.cfg.outReg ((s.loop n).cancelled.written f)) := by
  have silent (h : (s.loop n).cancelled.written f = []) (j : Job) :
      ((s.cutJob j).loop n).cancelled = (s.loop n).cancelled.adopting
        (lastWritten (s.loop n).cancelled.cfg.outReg ((s.loop n).cancelled.written f)) := by
    rw [h, loop_cutJob]
    rfl
  unfold State.cutFlight
  split
  · rename_i g i t reg st vs hj
    have ended : (s.recordEnd g i .withdrawn).loop n = s.loop n := loop_cutJob s (.record g i (.scatter t reg st vs)) n
    rw [cancelled_handOn, ended, LoopEntry.written, hj, LoopEntry.offer]
    simp only [Record.writes]
    split_ifs <;> rfl
  · rename_i g i r hr hj
    refine silent ?_ _
    rw [LoopEntry.written, hj]
    cases r with
    | scatter t reg st vs => exact (hr t reg st vs rfl).elim
    | single t reg v => rfl
    | run t reg vs => rfl
    | poll t reg m e a p => rfl
    | wait l d => rfl
    | setpoint m v => rfl
  · rename_i hj
    exact silent (by rw [LoopEntry.written, hj]) _
  · rename_i hj
    exact silent (by rw [LoopEntry.written, hj]) _

/-- What a lane's next report does to a loop. -/
theorem cancelled_cutNext (k : Nat) (s : State) (l n : Fin 4) :
    ((State.cutNext k s l).loop n).cancelled =
      (s.loop n).cancelled.adopting ((s.loop n).cancelled.adoption (s.lane l)) := by
  cases hf : (s.lane l).flight with
  | some f =>
    rw [cutNext_flight hf, cancelled_cutFlight, LoopEntry.adoption, hf]
    simp
  | none =>
    rw [adoption_idle _ hf]
    cases hq : (s.lane l).queue with
    | cons j q => rw [cutNext_head hf hq, loop_cutJob]; rfl
    | nil => rw [cutNext_idle hf hq]; rfl

theorem adoption_cutNext (k : Nat) (s : State) (l m : Fin 4) (x : LoopEntry) :
    x.adoption ((State.cutNext k s l).lane m) = if l = m then none else x.adoption (s.lane m) := by
  rw [lane_cutNext]
  split_ifs
  · exact adoption_idle x (Lane.afterCut_flight ..)
  · rfl

/-- A value that one of the lanes offers the loop, if any does. -/
structure LoopEntry.Offered (x : LoopEntry) (lane : Fin 4 → Lane) (o : Option Val) : Prop where
  nothing : o = none → ∀ l, x.adoption (lane l) = none
  value : ∀ v, o = some v → ∃ l, x.adoption (lane l) = some v

/-- When the reports are through, a loop has adopted what one of the lanes offered, if any did (R57, R122). -/
theorem cancelled_foldl_cutNext (k : Nat) (order : List (Fin 4)) (s : State) (n : Fin 4)
    (through : ∀ l, ((order.foldl (State.cutNext k) s).lane l).flight = none) :
    ∃ o, ((order.foldl (State.cutNext k) s).loop n).cancelled = (s.loop n).cancelled.adopting o ∧
      (s.loop n).cancelled.Offered s.lane o := by
  induction order generalizing s with
  | nil => exact ⟨none, rfl, fun _ l => adoption_idle _ (through l), fun _ hv => nomatch hv⟩
  | cons l order ih =>
    obtain ⟨o, hloop, hnone, hsome⟩ := ih (State.cutNext k s l) through
    rw [cancelled_cutNext] at hloop hnone hsome
    simp only [adoption_adopting, adoption_cutNext] at hnone hsome
    generalize (s.loop n).cancelled = x at hloop hnone hsome
    cases o with
    | some v =>
      refine ⟨some v, hloop.trans (adopting_adopting ..), ⟨fun h => (by cases h), fun u hu => ?_⟩⟩
      obtain ⟨m, hm⟩ := hsome u hu
      split_ifs at hm
      exact ⟨m, hm⟩
    | none =>
      refine ⟨x.adoption (s.lane l), hloop, ⟨fun h m => ?_, fun v hv => ⟨l, hv⟩⟩⟩
      have hm := hnone rfl m
      split_ifs at hm with hl
      · rw [← hl, h]
      · exact hm

theorem loop_cutAccounts (s : State) (n : Fin 4) : s.cutAccounts.loop n = s.loop n := by
  unfold State.cutAccounts
  refine foldl_keeps (P := fun t => t.loop n = s.loop n) (fun t g ht => ?_) _ s rfl
  split_ifs
  · exact ht
  · exact ht

/-- A loop after a reset of the lanes (R57, R126). -/
theorem loop_cutLanes (s : State) (n : Fin 4) :
    ∃ o, s.cutLanes.loop n = (s.loop n).cancelled.adopting o ∧ (s.loop n).cancelled.Offered s.lane o := by
  have idle (l : Fin 4) := (Lane.jobs_eq_nil (foldl_cutOrder_jobs s l)).1
  obtain ⟨o, hloop, offered⟩ := cancelled_foldl_cutNext s.fresh s.cutOrder s.cutAccounts n idle
  have lanes : s.cutAccounts.lane = s.lane := funext (lane_cutAccounts s)
  rw [loop_cutAccounts, lanes] at offered
  rw [loop_cutAccounts] at hloop
  have cancelled (t : State) : t.cancelLoops.loop n = (t.loop n).cancelled :=
    foldl_upTo (get := State.loop) (f := fun _ x => x.cancelled) (fun u i j => by rw [State.loop_setLoop]) t n
  have drawn (t : State) : t.drawn.loop n = t.loop n := rfl
  exact ⟨o, by rw [State.cutLanes, drawn, cancelled, hloop], offered⟩

/-! ## The accounts at the start of the reset (R99) -/

/-- A group's account takes `cut`, when the group is LAUNCHING. -/
def Account.cutFor (a : Account) (x : GroupEntry) : Account := if x.state = .launching then { a with cut := true } else a

theorem setAccount_account (s : State) (g : Fin 8) : s.setAccount g (s.account g) = s := by
  simp [State.setAccount, State.account]

theorem cutAccounts_eq (s : State) :
    s.cutAccounts = (upTo 8).foldl (fun t g => t.setAccount g ((t.account g).cutFor (t.group g))) s := by
  unfold State.cutAccounts
  congr 1
  funext t g
  rw [Account.cutFor]
  split_ifs
  · rfl
  · rw [setAccount_account]

/-- The groups stay, and the account of each takes `cut` by its own state. -/
theorem group_account_cutAccounts (s : State) (g : Fin 8) :
    (s.cutAccounts.group g, s.cutAccounts.account g) = (s.group g, (s.account g).cutFor (s.group g)) := by
  rw [cutAccounts_eq]
  refine foldl_upTo (get := fun t g => (t.group g, t.account g)) (f := fun _ x => (x.1, x.2.cutFor x.1))
    (fun t i j => ?_) s g
  simp only [State.group_setAccount, State.account_setAccount]
  split_ifs with h
  · rw [h]
  · rfl

theorem group_cutAccounts (s : State) (g : Fin 8) : s.cutAccounts.group g = s.group g :=
  (Prod.mk.inj (group_account_cutAccounts s g)).1

theorem account_cutAccounts (s : State) (g : Fin 8) : s.cutAccounts.account g = (s.account g).cutFor (s.group g) :=
  (Prod.mk.inj (group_account_cutAccounts s g)).2

/-! ## The jobs that a reset reports, counted -/

theorem countP_map_snd (p : Job → Bool) (reports : List (Fin 4 × Job)) :
    (reports.map (·.2)).countP p = ∑ l, ((reports.filter (·.1 == l)).map (·.2)).countP p := by
  induction reports with
  | nil => simp
  | cons x reports ih =>
    have head (l : Fin 4) : (((x :: reports).filter (·.1 == l)).map (·.2)).countP p =
        ((reports.filter (·.1 == l)).map (·.2)).countP p + if x.1 = l then (if p x.2 then 1 else 0) else 0 := by
      by_cases hl : x.1 = l
      · simp [hl, List.countP_cons]
      · simp [hl]
    simp only [head, Finset.sum_add_distrib, Finset.sum_ite_eq, Finset.mem_univ, if_true, ← ih, List.map_cons,
      List.countP_cons]

/-- The jobs of the lanes are those queued and those in flight. -/
theorem countP_jobs (s : State) (p : Job → Bool) :
    ∑ l, (s.lane l).jobs.countP p = s.queuedCount p + s.flightCount p := by
  have flights : s.flightCount p =
      ∑ l, if (match (s.lane l).flight with | none => false | some f => p f.job) = true then 1 else 0 := by
    rw [State.flightCount, ← sum_upTo]
    generalize upTo 4 = lanes
    induction lanes with
    | nil => rfl
    | cons l lanes ih =>
      rw [List.countP_cons, ih, List.map_cons, List.sum_cons]
      exact Nat.add_comm _ _
  rw [State.queuedCount, sum_upTo, flights, ← Finset.sum_add_distrib]
  refine Finset.sum_congr rfl fun l _ => ?_
  rw [Lane.jobs, List.countP_append, Nat.add_comm]
  cases (s.lane l).flight with
  | none => rfl
  | some f => simp [List.countP_cons]

end Sys2Proof.Machine
end

section
/-! SUPPORT. PART.RESET LANES, assembled (R57, R86, R99, R122, R126, R206). -/

namespace Sys2Proof.Machine

/-! ## The lanes -/

/-- A lane's transaction in flight ends cut (R57). -/
theorem cutBus_spec (x : Lane) (k : Nat) :
    (x.flight = none → x.cutBus k = x.bus) ∧
    ∀ f, x.flight = some f →
      (f.part = .hold → x.cutBus k = x.bus) ∧
      (f.part ≠ .hold → ∃ front, front <+: f.wire ∧ (2 ≤ f.wire.length → front ≠ [] ∧ front ≠ f.wire) ∧
        x.cutBus k = front ++ (if x.settings.isI2c = true then [BusSym.release, BusSym.stop]
          else [BusSym.releaseSelect (decide (f.cfg.address = .selectB))])) := by
  refine ⟨fun h => by rw [Lane.cutBus, h], fun f hf => ⟨fun hp => by simp only [Lane.cutBus, hf, if_pos hp], fun hp => ?_⟩⟩
  obtain ⟨hprefix, hproper⟩ := begunWire_spec k f.wire
  refine ⟨_, hprefix, hproper, ?_⟩
  rw [← cutWire_eq]
  simp only [Lane.cutBus, hf, if_neg hp]

/-- Every lane is idle and empty, its settings kept (R57). -/
theorem lane_cutLanes (s : State) (l : Fin 4) :
    s.cutLanes.lane l = ⟨(s.lane l).settings, [], none, (s.cutLanes.lane l).bus⟩ := by
  obtain ⟨hflight, hqueue⟩ := Lane.jobs_eq_nil (cutLanes_jobs s l)
  rw [← cutLanes_settings, ← hflight, ← hqueue]

/-! ## The groups and the Host Port -/

/-- What the reports leave, beside the lanes, the loops and the counter of free values. -/
def State.reported (s : State) : State := (s.cutAll.map (·.2)).foldl State.cutJob s.cutAccounts

theorem hpt_cutLanes (s : State) : s.cutLanes.hpt = s.reported.hpt := by
  obtain ⟨x, y, h⟩ := cutLanes_withLanes s
  rw [h]
  rfl

theorem ledger_cutLanes (s : State) : s.cutLanes.ledger = s.reported.ledger := by
  obtain ⟨x, y, h⟩ := cutLanes_withLanes s
  rw [h]
  rfl

theorem group_cutLanes (s : State) (g : Fin 8) : s.cutLanes.group g = s.reported.group g := by
  rw [State.group, gtb_of_ledger (ledger_cutLanes s)]
  rfl

theorem account_cutLanes (s : State) (g : Fin 8) : s.cutLanes.account g = s.reported.account g := by
  obtain ⟨x, y, h⟩ := cutLanes_withLanes s
  rw [h]
  rfl

theorem arm_cutAccounts (s : State) : s.cutAccounts.sau.arm = s.sau.arm := by
  rw [cutAccounts_eq]
  refine foldl_keeps (P := fun t => t.sau.arm = s.sau.arm) (fun t g ht => ?_) _ s rfl
  exact ht

/-- The arm list is kept (R57). -/
theorem arm_cutLanes (s : State) : s.cutLanes.sau.arm = s.sau.arm := by
  have arm : s.cutLanes.sau.arm = s.reported.sau.arm := by
    obtain ⟨x, y, h⟩ := cutLanes_withLanes s
    rw [h]
    rfl
  rw [arm]
  exact foldl_keeps (P := fun t => t.sau.arm = s.sau.arm) (fun t j ht => (arm_cutJob t j).trans ht) _ _
    (arm_cutAccounts s)

/-- The records and the pins of the groups are kept. -/
theorem records_cutLanes (s : State) (g : Fin 8) :
    (s.cutLanes.group g).records = (s.group g).records ∧ (s.cutLanes.group g).pins = (s.group g).pins := by
  rw [group_cutLanes]
  refine foldl_keeps
    (P := fun t : State => (t.group g).records = (s.group g).records ∧ (t.group g).pins = (s.group g).pins)
    (fun t j ht => ?_) _ _ (by rw [group_cutAccounts]; exact ⟨rfl, rfl⟩)
  obtain ⟨hrecords, hpins⟩ := records_cutJob t j g
  exact ⟨hrecords.trans ht.1, hpins.trans ht.2⟩

theorem cutFor_pending (a : Account) (x : GroupEntry) :
    (a.cutFor x).pending = a.pending ∧ (a.cutFor x).abortTaken = a.abortTaken := by
  rw [Account.cutFor]
  split_ifs <;> exact ⟨rfl, rfl⟩

/-- Under the pending law the jobs reported are all that the launches wait for (R79). -/
theorem pending_cutAll {s : State} (h : s.pendingLaw) (g : Fin 8) :
    (s.cutAccounts.account g).pending = (s.cutAll.map (·.2)).countP (Job.ofGroup g) := by
  rw [account_cutAccounts, (cutFor_pending _ _).1, countP_map_snd]
  simp only [cutAll_jobs]
  exact (h g).trans (countP_jobs s _).symm

/-- Each launch that waits for jobs is cut, when its group is LAUNCHING. -/
theorem cutPending_cutAll {s : State} (h : s.pendingLaw) {g : Fin 8}
    (launching : (s.account g).pending ≠ 0 → (s.group g).state = .launching) :
    s.cutAccounts.CutPending (s.cutAll.map (·.2)) g where
  pending := pending_cutAll h g
  cut := by
    rw [account_cutAccounts, (cutFor_pending _ _).1]
    intro hp
    rw [Account.cutFor, if_pos (launching hp)]

/-- Each group after the reset, when it is LAUNCHING while its launch has records pending (R88, R99). -/
theorem group_cutLanes_cutDown {s : State} (h : s.pendingLaw) {g : Fin 8}
    (launching : (s.account g).pending ≠ 0 → (s.group g).state = .launching) :
    s.cutLanes.group g =
      (s.group g).cutDown (s.account g).pending (s.account g).abortTaken (s.armEntry g).isSome := by
  have armed : s.cutAccounts.armEntry g = s.armEntry g := by rw [State.armEntry, arm_cutAccounts]; rfl
  obtain ⟨hpending, haborted⟩ := cutFor_pending (s.account g) (s.group g)
  rw [group_cutLanes, State.reported, group_cutJobs (cutPending_cutAll h launching), group_cutAccounts,
    account_cutAccounts, hpending, haborted, armed]

theorem cutAccounts_hpt (s : State) : s.cutAccounts.hpt = s.hpt ∧ s.cutAccounts.raised = s.raised := by
  rw [cutAccounts_eq]
  refine foldl_keeps (P := fun t => t.hpt = s.hpt ∧ t.raised = s.raised) (fun t g ht => ?_) _ s ⟨rfl, rfl⟩
  exact ht

/-- The answers and the notices of the reset (R55, R57, R99, R206). -/
theorem hpt_cutLanes_cutReports {s : State} (h : s.pendingLaw)
    (launching : ∀ g, (s.account g).pending ≠ 0 → (s.group g).state = .launching) (hr : s.raised = 0) :
    s.cutLanes.hpt = cutReports (doneOf s.cutLanes.group) s.hpt (s.cutAll.map (·.2)) := by
  obtain ⟨hhpt, hraised⟩ := cutAccounts_hpt s
  have none : s.cutAccounts.raisedDone := by
    rw [State.raisedDone, hraised, hr]
    exact fun n hn => absurd hn List.not_mem_nil
  have groups : s.cutLanes.group = s.reported.group := funext (group_cutLanes s)
  rw [hpt_cutLanes, groups, ← hhpt]
  exact hpt_cutJobs (fun g => cutPending_cutAll h (launching g)) none

/-! ## The loops -/

/-- A loop that does not run only loses its jobs (R126). -/
theorem loop_cutLanes_rest {s : State} {n : Fin 4} (h : (s.loop n).state.running = false) :
    s.cutLanes.loop n = { s.loop n with jobsOut := 0 } := by
  obtain ⟨o, hloop, -⟩ := loop_cutLanes s n
  have rest : (s.loop n).cancelled.state.running = false := by rw [cancelled_state, h]
  rw [hloop, adopting_rest rest, cancelled_rest h]

theorem adoption_cancelled (x : LoopEntry) (y : Lane) : x.cancelled.adoption y = x.adoption y := by
  have written : x.cancelled.written = x.written := by
    funext f
    simp only [LoopEntry.written, cancelled_cfg]
  rw [LoopEntry.adoption, cancelled_cfg, written, LoopEntry.adoption]

/-- A loop that runs has its cycle ended, and adopts one of the values that the lanes offer it (R57, R122, R126). -/
theorem loop_cutLanes_run {s : State} {n : Fin 4} (h : (s.loop n).state.running = true) {adopted : List Val}
    (ha : adopted = (upTo 4).filterMap fun l => (s.loop n).adoption (s.lane l)) :
    (adopted = [] → s.cutLanes.loop n = { s.loop n with cycle := .none, stale := false, jobsOut := 0 }) ∧
    (adopted ≠ [] → ∃ v ∈ adopted, s.cutLanes.loop n =
      { s.loop n with output := v, state := .tracking, cycle := .none, stale := false, jobsOut := 0 }) := by
  obtain ⟨o, hloop, nothing, value⟩ := loop_cutLanes s n
  have run : (s.loop n).cancelled.state.running = true := by rw [cancelled_state, h]
  have mem (v : Val) : v ∈ adopted ↔ ∃ l, (s.loop n).adoption (s.lane l) = some v := by
    simp [ha, upTo]
  simp only [adoption_cancelled] at nothing value
  cases o with
  | none =>
    have empty : adopted = [] := List.eq_nil_iff_forall_not_mem.2 fun v hv => by
      obtain ⟨l, hl⟩ := (mem v).1 hv
      rw [nothing rfl l] at hl
      cases hl
    exact ⟨fun _ => hloop.trans (cancelled_run h), fun hn => absurd empty hn⟩
  | some v =>
    have hv := (mem v).2 (value v rfl)
    refine ⟨fun he => absurd hv (by simp [he]), fun _ => ⟨v, hv, ?_⟩⟩
    rw [hloop, adopting_run run, cancelled_run h]

/-- Settles O34: the lanes, the Host Port by the reports in their order, the loops, and the groups with their accounts. -/
theorem lanesResetCutsLaunches : Obligations.LanesResetCutsLaunches := by
  intro s
  have outside := cutLanes_outside s
  simp only [State.outside, Prod.mk.injEq] at outside
  obtain ⟨-, hpsc, hsuc, hnv, -⟩ := outside
  refine ⟨fun h ha => taking_request ha 0x72#8 _, fun l => ?lanes, fun hp hl hr => ?reports, ?targets, arm_cutLanes s,
    hpsc, hsuc, hnv, fun n => ⟨loop_cutLanes_rest, fun hrun => loop_cutLanes_run hrun ?adopted⟩, records_cutLanes s,
    fun hp g => ⟨?pending, fun h0 => ?untouched, fun hn hl => ?ended⟩⟩
  case lanes =>
    have bus := cutLanes_bus s l
    have spec := cutBus_spec (s.lane l) (Config.cutPlace s.fresh l.val)
    rw [← bus] at spec
    exact ⟨lane_cutLanes s l, spec⟩
  case reports => exact ⟨s.cutAll, cutAll_jobs s, hpt_cutLanes_cutReports hp hl hr⟩
  case targets => exact congrArg Prod.fst (cutLanes_besideLanes s)
  case adopted => rfl
  case pending =>
    rw [account_cutLanes]
    exact pending_cutJobs (pending_cutAll hp g)
  case untouched =>
    rw [group_cutLanes_cutDown hp fun hn => absurd h0 hn, h0]
    rfl
  case ended =>
    rw [group_cutLanes_cutDown hp fun _ => hl, GroupEntry.cutDown, if_neg hn]
    exact ⟨rfl, rfl, rfl⟩

end Sys2Proof.Machine
end

section
/-! SUPPORT. The walk of the arm list, accepted edges and windows, and the pulse filter (R60, R61, R69 to R73). -/

namespace Sys2Proof.Machine

/-! ## The walk (R69 to R71) -/

/-- An entry of the walked line whose countdown has run out. -/
abbrev ArmEntry.ripe (e : ArmEntry) (line : Line) : Bool := e.line == line && e.countdown == 0#8

/-- What a walk leaves of an entry in the arm list (R69). -/
def ArmEntry.moved (line : Line) (launching : Bool) (e : ArmEntry) : Option ArmEntry :=
  if e.line ≠ line then some e
  else if e.countdown ≠ 0#8 then some { e with countdown := e.countdown - 1#8 }
  else if launching then some { e with countdown := e.skip }
  else if e.mode = .every then some { e with countdown := e.skip }
  else none

/-- The group of an arm entry is LAUNCHING. -/
abbrev State.launchingEntry (s : State) (e : ArmEntry) : Bool := (s.group e.group).state == .launching

/-- One entry's move, as the walk takes it. -/
theorem walked_eq (line : Line) (launching : Bool) (e : ArmEntry) (w : Walked) :
    (if e.line ≠ line then ⟨e :: w.arm, w.due⟩ else e.walked launching w) =
      (⟨(e.moved line launching).toList ++ w.arm,
        (if e.ripe line && !launching then [e.group] else []) ++ w.due⟩ : Walked) := by
  by_cases hline : e.line = line
  · by_cases hc : e.countdown = 0#8
    · cases launching with
      | true => simp [ArmEntry.moved, ArmEntry.walked, hline, hc]
      | false => cases hm : e.mode <;> simp [ArmEntry.moved, ArmEntry.walked, hline, hc, hm]
    · simp [ArmEntry.moved, ArmEntry.walked, hline, hc]
  · simp [ArmEntry.moved, hline]

/-- The walk moves every entry, and finds due those whose countdown has run out while their group is not LAUNCHING. -/
theorem walk_eq (s : State) (line : Line) (l : List ArmEntry) :
    s.walk line l =
      { arm := l.filterMap fun e => e.moved line (s.launchingEntry e)
        due := (l.filter fun e => e.ripe line && !s.launchingEntry e).map (·.group) } := by
  induction l with
  | nil => rfl
  | cons e l ih =>
    rw [State.walk, ih]
    refine (walked_eq line (s.launchingEntry e) e _).trans ?_
    rw [List.filterMap_cons, List.filter_cons]
    congr 1
    · cases e.moved line (s.launchingEntry e) <;> rfl
    · split_ifs <;> rfl

/-! ## Launches at an edge (R70, R79) -/

/-- The records of a launch join the lanes, and nothing else changes. -/
theorem appendRecords_eq (s : State) (g : Fin 8) (i : Nat) (l : List Record) :
    ∃ x, s.appendRecords g i l = { s with lanes := x } := by
  induction l generalizing s i with
  | nil => exact ⟨s.lanes, rfl⟩
  | cons r l ih => exact ih (s.appendJob (s.recordLane r) (.record g i r)) (i + 1)

/-- Beside the lanes a launch changes its group and its account. -/
theorem launch_eq (s : State) (e : Option LaunchEdge) (g : Fin 8) :
    ∃ x, s.launch e g =
      { (s.setGroup g ((s.group g).launched e)).setAccount g ⟨(s.group g).records.length, false, false⟩ with
        lanes := x } :=
  appendRecords_eq _ g 0 _

theorem sau_launch (s : State) (e : Option LaunchEdge) (g : Fin 8) : (s.launch e g).sau = s.sau := by
  obtain ⟨x, h⟩ := launch_eq s e g
  rw [h]
  rfl

theorem line_of_sau {s t : State} (h : t.sau = s.sau) (line : Line) : t.line line = s.line line := by
  cases line <;> simp only [State.line, h]

theorem line_overrun (s : State) (g : Fin 8) (line l : Line) (n : Half) : (s.overrun g line n).line l = s.line l := by
  cases l <;> rfl

/-- Steps that leave a line as it is all see the edge number that the first sees. -/
theorem foldl_counter {f : State → Half → Fin 8 → State} {line : Line}
    (h : ∀ t c g, (f t c g).line line = t.line line) (gs : List (Fin 8)) (s : State) :
    gs.foldl (fun t g => f t (t.line line).counter g) s = gs.foldl (fun t g => f t (s.line line).counter g) s := by
  generalize hc : (s.line line).counter = c
  induction gs generalizing s with
  | nil => rfl
  | cons g gs ih =>
    rw [List.foldl_cons, List.foldl_cons, hc]
    exact ih _ (by rw [h, hc])

/-- The groups of one edge are launched with its number, whatever the launches before (R70). -/
theorem launchAll_eq (s : State) (line : Line) (gs : List (Fin 8)) :
    s.launchAll line gs = gs.foldl (fun t g => t.launch (some ⟨(s.line line).counter, line⟩) g) s :=
  foldl_counter (f := fun t c g => t.launch (some ⟨c, line⟩) g) (fun _ _ _ => line_of_sau (sau_launch ..) line) gs s

/-- The occurrences lost at one edge are reported with its number (R71). -/
theorem edgeWalked_eq (s : State) (line : Line) :
    s.edgeWalked line =
      ((s.lost line).foldl (fun t g => t.overrun g line (s.line line).counter) s).setArm
        (s.walk line s.sau.arm).arm :=
  congrArg (State.setArm · (s.walk line s.sau.arm).arm)
    (foldl_counter (f := fun t c g => t.overrun g line c) (fun t c g => line_overrun t g line line c) (s.lost line) s)

/-- Settles O37: the walk by its moves; the rest is how an edge's operations are defined. -/
theorem walkMoves : Obligations.WalkMoves := fun s line =>
  ⟨walk_eq s line s.sau.arm, edgeWalked_eq s line, launchAll_eq s line, fun _ _ => rfl⟩

/-! ## Windows (R72, R73) -/

theorem closeWindow_closed {s : State} {line : Line} (h : (s.line line).opened = none) : s.closeWindow line = s := by
  simp only [State.closeWindow, h]

/-- An open window closes: the groups of its set take `late` (R72). -/
theorem closeWindow_open {s : State} {line : Line} {w : Window} (h : (s.line line).opened = some w) :
    s.closeWindow line =
      w.set.foldl (fun s g => s.setGroup g { s.group g with late := true })
        (s.setLine line { s.line line with opened := none }) := by
  simp only [State.closeWindow, h]

/-- Marking groups `late` touches the group table alone, and of each group that field. -/
theorem foldl_late (gs : List (Fin 8)) (s : State) (g : Fin 8) :
    ((gs.foldl (fun s g => s.setGroup g { s.group g with late := true }) s).group g) =
      { s.group g with late := (s.group g).late || gs.contains g } := by
  induction gs generalizing s with
  | nil => simp
  | cons g' gs ih =>
    rw [List.foldl_cons, ih, State.group_setGroup]
    by_cases hg : g' = g
    · subst hg
      simp
    · simp [hg, Ne.symm hg]

theorem foldl_late_gtb (gs : List (Fin 8)) (s : State) :
    ∃ x : Gtb, gs.foldl (fun s g => s.setGroup g { s.group g with late := true }) s = { s with gtb := x } ∧
      x.free = s.gtb.free :=
  foldl_keeps (P := fun t : State => ∃ x : Gtb, t = { s with gtb := x } ∧ x.free = s.gtb.free)
    (fun t g ht => by
      obtain ⟨x, rfl, hx⟩ := ht
      exact ⟨_, rfl, hx⟩) gs s ⟨s.gtb, rfl, rfl⟩

/-- A window's closing leaves every group but for `late`. -/
theorem group_closeWindow (s : State) (line : Line) (g : Fin 8) :
    ∃ b, (s.closeWindow line).group g = { s.group g with late := b } := by
  cases h : (s.line line).opened with
  | none => exact ⟨(s.group g).late, by rw [closeWindow_closed h]⟩
  | some w =>
    rw [closeWindow_open h, foldl_late]
    exact ⟨_, by rw [State.group, State.setLine_gtb]; rfl⟩

/-- Beside the groups a window's closing changes that window alone. -/
theorem closeWindow_eq (s : State) (line : Line) :
    ∃ x : Gtb, s.closeWindow line = { s.setLine line { s.line line with opened := none } with gtb := x } ∧
      x.free = s.gtb.free := by
  cases h : (s.line line).opened with
  | none =>
    refine ⟨s.gtb, ?_, rfl⟩
    rw [closeWindow_closed h]
    cases line <;> simp only [State.setLine, State.line] at h ⊢ <;> rw [← h]
  | some w =>
    obtain ⟨x, hx, hfree⟩ := foldl_late_gtb w.set (s.setLine line { s.line line with opened := none })
    exact ⟨x, (closeWindow_open h).trans hx, by rw [hfree, State.setLine_gtb]⟩

theorem line_closeWindow (s : State) (line l : Line) :
    (s.closeWindow line).line l = if line = l then { s.line line with opened := none } else s.line l := by
  obtain ⟨x, h, -⟩ := closeWindow_eq s line
  rw [h, ← State.line_setLine]
  cases l <;> rfl

/-- An edge, step by step: the loops take it before, between or after the launches (R61, R82). -/
theorem edgeMade_eq (s : State) (line : Line) :
    ∃ front back, s.dueAt line = front ++ back ∧
      s.edgeMade line =
        ((((((s.edgeBegun line).edgeWalked line).launchAll line front).loopsEdge line).launchAll line back).openWindow
          line (s.dueAt line)).drawn :=
  ⟨_, _, (List.take_append_drop _ _).symm, rfl⟩

/-- Settles O36: the edge step by step, then the window by its closing. -/
theorem edgeTakenInOrder : Obligations.EdgeTakenInOrder := by
  intro s line
  refine ⟨⟨edgeMade_eq s line, rfl⟩, closeWindow_closed, fun w hw => ?_,
    fun hlive => taking_live hlive fun t => t.closeWindow line⟩
  obtain ⟨x, hx, hfree⟩ := closeWindow_eq s line
  refine ⟨?_, fun l hl => ?_, ?_, ?_, ?_, ?_, ?_, fun g => ?_⟩
  · rw [line_closeWindow, if_pos rfl]
  · rw [line_closeWindow, if_neg (Ne.symm hl)]
  · rw [hx]; exact State.setLine_arm ..
  · rw [hx]; exact State.setLine_lsq ..
  · rw [hx]; exact State.setLine_lanes ..
  · rw [hx]; exact State.setLine_hpt ..
  · rw [hx]; exact hfree
  · rw [closeWindow_open hw, foldl_late, State.group, State.setLine_gtb]
    rfl

/-! ## The pulse filter (R60) -/

theorem accepts_iff (e : EdgeSel) (high : Bool) :
    e.accepts high = true ↔ e = .both ∨ (e = .rising ∧ high = true) ∨ (e = .falling ∧ high = false) := by
  cases e <;> simp [EdgeSel.accepts]

theorem line_setPinLevel (s : State) (line l : Line) (level : Bool) : (s.setPinLevel line level).line l = s.line l := by
  cases line <;> cases l <;> rfl

theorem live_setPinLevel (s : State) (line : Line) (level : Bool) : (s.setPinLevel line level).live = s.live := by
  cases line <;> rfl

theorem filterSettled_steady {s : State} {line : Line} (h : (s.line line).hold = false) : filterSettled line s = s := by
  simp [filterSettled, h]

/-- A level has been in its hold: it is passed, and an edge is made when it is a transition that `edge` accepts (R60). -/
theorem filterSettled_held {s : State} {line : Line} (h : (s.line line).hold = true) :
    filterSettled line s =
      let t := s.setLine line { s.line line with filtered := some (s.pinLevel line), hold := false }
      if (s.line line).filtered = some (!s.pinLevel line) ∧ (s.line line).edge.accepts (s.pinLevel line) = true then
        t.edge line
      else t := by
  simp [filterSettled, h]

/-- Settles O38: the hold by the level's change, then the two ways a hold can end. -/
theorem pulseFilter : Obligations.PulseFilter := by
  intro s line level hlive
  refine ⟨?_, fun hold => ?_, fun hold hlevel => ⟨fun hpass hacc => ?_, fun hno => ?_⟩⟩
  · have hl : (s.setPinLevel line level).live = true := (live_setPinLevel ..).trans hlive
    refine (taking_live hl _).trans ?_
    have differs : ((s.line line).filtered != some level) = decide ((s.line line).filtered ≠ some level) := by
      rw [Bool.eq_iff_iff]
      simp
    rw [levelChanged, line_setPinLevel, differs]
  · refine (taking_live hlive _).trans ?_
    rw [filterSettled_steady hold]
  · refine (taking_live hlive _).trans ?_
    rw [filterSettled_held hold, hlevel]
    simp only [if_pos (And.intro hpass ((accepts_iff ..).2 hacc))]
  · refine (taking_live hlive _).trans ?_
    rw [filterSettled_held hold, hlevel, ← accepts_iff] at *
    have untaken : ¬((s.line line).filtered = some (!level) ∧ (s.line line).edge.accepts level = true) := by tauto
    simp only [if_neg untaken]

end Sys2Proof.Machine
end

section
/-! SUPPORT. The sync requests, and arming and disarming a group (R62 to R67, R206). -/

namespace Sys2Proof.Machine

/-! ## What an edge leaves alone -/

/-- The state of every group outlasts the first steps of an edge (R61, R72). -/
theorem state_edgeBegun (s : State) (line : Line) (g : Fin 8) :
    ((s.edgeBegun line).group g).state = (s.group g).state := by
  obtain ⟨b, h⟩ := group_closeWindow
    (s.setLine line { s.line line with counter := (s.line line).counter + 1#16 }) line g
  rw [State.edgeBegun, h, State.group, State.setLine_gtb]
  rfl

theorem arm_edgeBegun (s : State) (line : Line) : (s.edgeBegun line).sau.arm = s.sau.arm := by
  obtain ⟨x, h, -⟩ := closeWindow_eq (s.setLine line { s.line line with counter := (s.line line).counter + 1#16 }) line
  rw [State.edgeBegun, h]
  exact (State.setLine_arm ..).trans (State.setLine_arm ..)

/-- The groups that an edge finds due, read off the state before it (R69). -/
theorem dueAt_eq (s : State) (line : Line) :
    s.dueAt line = (s.sau.arm.filter fun e => e.ripe line && !s.launchingEntry e).map (·.group) := by
  rw [State.dueAt, walk_eq, arm_edgeBegun]
  simp only [State.launchingEntry, state_edgeBegun]

/-- The lines of two states, but for what is open on them. -/
def State.lineClosed (s : State) (line : Line) : SyncLine := (s.line line).closed

theorem lineClosed_of_sau {s t : State} (h : t.sau = s.sau) (line : Line) : t.lineClosed line = s.lineClosed line :=
  congrArg SyncLine.closed (line_of_sau h line)

theorem lineClosed_closeWindow (s : State) (line l : Line) : (s.closeWindow line).lineClosed l = s.lineClosed l := by
  rw [State.lineClosed, line_closeWindow]
  split_ifs with h
  · rw [h]; rfl
  · rfl

theorem lineClosed_openWindow (s : State) (line l : Line) (gs : List (Fin 8)) :
    (s.openWindow line gs).lineClosed l = s.lineClosed l := by
  unfold State.openWindow
  split_ifs
  · rfl
  · rw [State.lineClosed, State.line_setLine]
    split_ifs with h
    · rw [h]; rfl
    · rfl

theorem line_setArm (s : State) (arm : List ArmEntry) (l : Line) : (s.setArm arm).line l = s.line l := by
  cases l <;> rfl

theorem lineClosed_edgeWalked (s : State) (line l : Line) : (s.edgeWalked line).lineClosed l = s.lineClosed l := by
  rw [State.edgeWalked, State.lineClosed, line_setArm]
  exact foldl_keeps (P := fun t => t.lineClosed l = s.lineClosed l)
    (fun t g ht => (congrArg SyncLine.closed (line_overrun t g line l _)).trans ht) _ s rfl

theorem lineClosed_launchAll (s : State) (line l : Line) (gs : List (Fin 8)) :
    (s.launchAll line gs).lineClosed l = s.lineClosed l :=
  foldl_keeps (P := fun t => t.lineClosed l = s.lineClosed l)
    (fun _ _ ht => (lineClosed_of_sau (sau_launch ..) l).trans ht) gs s rfl

theorem sau_of_ledger {s t : State} (h : t.ledger = s.ledger) : t.sau = s.sau := congrArg (fun x => x.2.2) h

theorem sau_loopsEdge (s : State) (line : Line) : (s.loopsEdge line).sau = s.sau :=
  sau_of_ledger (ledger_loopsEdge s line)

/-- An edge counts on its line (R61). -/
theorem counter_edgeMade (s : State) (line : Line) :
    ((s.edgeMade line).line line).counter = (s.line line).counter + 1#16 := by
  have begun : ((s.edgeBegun line).lineClosed line).counter = (s.line line).counter + 1#16 := by
    rw [State.edgeBegun, lineClosed_closeWindow, State.lineClosed, State.line_setLine_self]
  have made : (s.edgeMade line).lineClosed line = (s.edgeBegun line).lineClosed line := by
    obtain ⟨front, back, -, h⟩ := edgeMade_eq s line
    rw [h]
    refine (lineClosed_openWindow _ line line _).trans ?_
    rw [lineClosed_launchAll, lineClosed_of_sau (sau_loopsEdge ..), lineClosed_launchAll, lineClosed_edgeWalked]
  rw [← begun, ← made]
  rfl

/-! ## The Host Port at an edge (R195, R206) -/

/-- The replies queued and the requests outstanding. -/
def State.promised (s : State) : List Reply × List Outstanding := (s.hpt.replies, s.hpt.outstanding)

theorem promised_notify (s : State) (c : Byte) (p : List Byte) (u : Bool) :
    (s.notify c p u).promised = s.promised := by
  obtain ⟨replies, outstanding⟩ := notify_replies s c p u
  rw [State.promised, replies, outstanding, State.promised]

theorem promised_of_hpt {s t : State} (h : t.hpt = s.hpt) : t.promised = s.promised := by
  rw [State.promised, h, State.promised]

theorem hpt_launchAll (s : State) (line : Line) (gs : List (Fin 8)) : (s.launchAll line gs).hpt = s.hpt := by
  refine foldl_keeps (P := fun t => t.hpt = s.hpt) (fun t g ht => ?_) gs s rfl
  obtain ⟨x, h⟩ := launch_eq t (some ⟨(t.line line).counter, line⟩) g
  rw [h]
  exact ht

theorem hpt_loopsEdge (s : State) (line : Line) : (s.loopsEdge line).hpt = s.hpt := by
  refine foldl_keeps (P := fun t => t.hpt = s.hpt) (fun t n ht => ?_) _ s rfl
  simp only [State.loopEdge]
  split_ifs <;> exact ht

theorem hpt_edgeBegun (s : State) (line : Line) : (s.edgeBegun line).hpt = s.hpt := by
  obtain ⟨x, h, -⟩ := closeWindow_eq (s.setLine line { s.line line with counter := (s.line line).counter + 1#16 }) line
  rw [State.edgeBegun, h]
  exact (State.setLine_hpt ..).trans (State.setLine_hpt ..)

theorem hpt_openWindow (s : State) (line : Line) (gs : List (Fin 8)) : (s.openWindow line gs).hpt = s.hpt := by
  unfold State.openWindow
  split_ifs
  · rfl
  · exact State.setLine_hpt ..

theorem promised_overrun (s : State) (g : Fin 8) (line : Line) (n : Half) :
    (s.overrun g line n).promised = s.promised :=
  promised_notify (s.setGroup g { s.group g with overrunSeen := true }) _ _ _

theorem promised_edgeWalked (s : State) (line : Line) : (s.edgeWalked line).promised = s.promised := by
  rw [State.edgeWalked, promised_of_hpt (State.setArm_hpt ..)]
  exact foldl_keeps (P := fun t => t.promised = s.promised) (fun t g ht => (promised_overrun t g line _).trans ht) _ s rfl

/-- An edge queues no reply and answers no request; it only raises notices of its walk (R71). -/
theorem promised_edgeMade (s : State) (line : Line) : (s.edgeMade line).promised = s.promised := by
  obtain ⟨front, back, -, h⟩ := edgeMade_eq s line
  rw [h, ← promised_of_hpt (hpt_edgeBegun s line), ← promised_edgeWalked (s.edgeBegun line) line]
  refine promised_of_hpt ((hpt_openWindow _ line _).trans ?_)
  rw [hpt_launchAll, hpt_loopsEdge, hpt_launchAll]

/-- An edge does not look at the requests outstanding. -/
theorem dueAt_accepted (s : State) (h : ReqHead) (c : Byte) (line : Line) :
    (s.accepted h c).dueAt line = s.dueAt line := by
  rw [dueAt_eq, dueAt_eq]
  rfl

/-- The reply of a request that is outstanding last joins the reply queue, whatever was done for the request before. -/
theorem answer_promised {s t : State} {h : ReqHead} {c : Byte}
    (hu : s.hpt.outstanding.any (fun o => o.tag == h.tag) = false) (ht : t.promised = (s.accepted h c).promised)
    (st : Status) (r : List Byte) :
    (t.answer h.tag st r).hpt =
      { t.hpt with
        outstanding := s.hpt.outstanding
        replies := s.hpt.replies ++ [⟨h.tag, c ||| 0x80#8, st.byte :: r, false⟩] } := by
  obtain ⟨hreplies, houtstanding⟩ := Prod.mk.inj ht
  have port : t.hpt = { t.hpt with outstanding := s.hpt.outstanding ++ [⟨h.tag, c⟩] } :=
    congrArg (fun l => { t.hpt with outstanding := l }) houtstanding
  calc (t.answer h.tag st r).hpt
      = Hpt.answer { ({ t.hpt with outstanding := s.hpt.outstanding } : Hpt) with
          outstanding := s.hpt.outstanding ++ [⟨h.tag, c⟩] } h.tag (st.byte :: r) false :=
        congrArg (fun x : Hpt => x.answer h.tag (st.byte :: r) false) port
    _ = _ := answer_accepted (x := { t.hpt with outstanding := s.hpt.outstanding }) hu (st.byte :: r) false
    _ = _ := by rw [Hpt.enqueue, show t.hpt.replies = s.hpt.replies from hreplies]

/-! ## The sync requests (R62 to R64) -/

/-- SYNC.PULSE is a whole edge event, its reply, and the lanes' taking (R63, R206). -/
theorem exec_syncPulse {s : State} {h : ReqHead} (ha : s.admits h) (line : Line) :
    exec (.syncPulse h (lineByte line)) s =
      .next (State.arbitrated (State.settleLanes { ((s.accepted h 0x31#8).edgeMade line).answer h.tag .ok
        (halfBytes (((s.accepted h 0x31#8).edgeMade line).line line).counter ++
          [natByte (s.dueAt line).length]) with raised := 0 })) := by
  refine (taking_request ha 0x31#8 _).trans ?_
  rw [ownSyncPulse, lineOf_lineByte]
  simp only [dueAt_accepted]
  rfl

/-- Settles O35: SYNC.SET by its checks, SYNC.PULSE by the edge and what the lanes' taking keeps in the queues, SYNC.QUERY by
its result. -/
theorem syncRequests : Obligations.SyncRequests := by
  intro s h line ha
  have hu := ha.1.2.2.2.2.1
  refine ⟨fun edge window hw => ?set, ⟨exec_syncPulse ha line, ?counter, ?queues⟩, ?query⟩
  case set =>
    refine request_replied ha 0x30#8 (fun t => t.setLine line { s.line line with edge := edge, window := window })
      .ok [] ?_ ?_ (State.setLine_hpt ..)
    · rw [ownSyncSet, lineOf_lineByte, edgeOf_byte]
      simp only [if_pos hw]
      cases line <;> rfl
    · cases line <;> rfl
  case counter =>
    rw [counter_edgeMade]
    cases line <;> rfl
  case queues =>
    have promised := promised_edgeMade (s.accepted h 0x31#8) line
    have answered := answer_promised (c := 0x31#8) hu promised .ok
      (halfBytes (((s.accepted h 0x31#8).edgeMade line).line line).counter ++ [natByte (s.dueAt line).length])
    generalize (s.accepted h 0x31#8).edgeMade line = t at answered ⊢
    generalize halfBytes (t.line line).counter ++ [natByte (s.dueAt line).length] = result at answered ⊢
    let reply : Reply := ⟨h.tag, 0x31#8 ||| 0x80#8, Status.ok.byte :: result, false⟩
    have kept : State.queuesKept t.hpt.sending (s.hpt.replies ++ [reply]) t.hpt.notices
        ({ t.answer h.tag .ok result with raised := 0 } : State) := by
      refine ⟨?_, ⟨[], ?_⟩, [], ?_, Nat.zero_le _⟩
      · simp only [answered]
      · simp only [answered, List.append_nil]; rfl
      · simp only [answered, List.append_nil]
    obtain ⟨sending, ⟨more, hmore⟩, later, hlater, -⟩ := (laneSide_queuesKept (by simp)).settleLanes kept
    exact ⟨⟨more, by rw [hmore, List.append_assoc]; rfl⟩, ⟨later, hlater⟩, sending⟩
  case query =>
    refine ⟨(((s.line line).opened.map fun w => w.left s.fresh).getD 0), fun w hw => ?_, ?_⟩
    · rw [hw]
      exact Nat.lt_succ_iff.1 (Nat.mod_lt _ (Nat.succ_pos _))
    · refine (taking_request ha 0x32#8 _).trans ?_
      rw [ownSyncQuery, lineOf_lineByte]
      have bytes : syncBytes (s.accepted h 0x32#8) line = syncBytes s line := by cases line <;> rfl
      have drawn (t : State) : t.drawn.arbitrated = { t.arbitrated with fresh := t.fresh + 1 } := rfl
      have left : ((s.line line).opened.map fun w => natHalf (w.left s.fresh)) =
          (s.line line).opened.map fun _ => natHalf (((s.line line).opened.map fun w => w.left s.fresh).getD 0) := by
        cases (s.line line).opened <;> rfl
      simp only [bytes, drawn, answer_replied hu, ← left]
      rfl

/-! ## Arming and disarming (R66, R67) -/

theorem armEntry_isNone_iff (s : State) (g : Fin 8) : (s.armEntry g).isNone = true ↔ ∀ a ∈ s.sau.arm, a.group ≠ g := by
  simp [State.armEntry]

theorem setGroup_group (s : State) (g : Fin 8) : s.setGroup g (s.group g) = s := by
  simp [State.setGroup, State.group]

/-- Settles O19: GROUP.ARM by the state of the group, GROUP.DISARM by its place in the arm list. -/
theorem armAndDisarm : Obligations.ArmAndDisarm := by
  intro s h g ha
  refine ⟨fun line skip mode => ⟨fun hst => ?_, fun hst => ?_⟩, fun hout => ?_, fun hin => ?_⟩
  · refine taking_answered ha ?_
    rw [ownGroupArm, inRange_natByte_8]
    simp [hst]
  · refine request_replied ha 0x17#8 (fun t => (t.setGroup g { s.group g with state := .armed }).setArm
      (s.sau.arm ++ [⟨g, line, skip, skip, mode⟩])) .ok _ ?_ rfl rfl
    rw [ownGroupArm, inRange_natByte_8]
    simp [hst, State.armGroup]
  · refine taking_answered ha ?_
    have out : ((s.accepted h 0x18#8).armEntry g).isNone = true := (armEntry_isNone_iff ..).2 hout
    rw [ownGroupDisarm, inRange_natByte_8]
    simp only [out, if_true]
  · have listed : ¬((s.accepted h 0x18#8).armEntry g).isNone = true := by
      rw [armEntry_isNone_iff]
      simpa using hin
    refine ⟨fun hst => ?_, fun hst => ?_⟩
    · refine request_replied ha 0x18#8 (fun t => (t.setGroup g { s.group g with state := .ready }).setArm
        (s.sau.arm.filter fun a => a.group != g)) .ok [2#8] ?_ rfl rfl
      rw [ownGroupDisarm, inRange_natByte_8]
      simp only [listed, group_accepted, hst, if_true]
      rfl
    · refine request_replied ha 0x18#8 (fun t => t.setArm (s.sau.arm.filter fun a => a.group != g)) .ok [4#8] ?_ rfl rfl
      have same : (s.accepted h 0x18#8).setGroup g { s.group g with state := .launching } = s.accepted h 0x18#8 := by
        rw [← hst]
        exact setGroup_group (s.accepted h 0x18#8) g
      rw [ownGroupDisarm, inRange_natByte_8]
      simp only [listed, group_accepted, hst, reduceCtorEq, if_false, same]
      rfl

end Sys2Proof.Machine
end

section
/-! SUPPORT. GROUP.APPLY, and what the lanes' taking leaves alone (R39, R40, R74). -/

namespace Sys2Proof.Machine

/-! ## The lanes and the targets under a dispatch -/

/-- No target changes, no lane takes other settings, and no lane but `l` another job in flight. -/
structure State.OnlyOn (l : Fin 4) (s t : State) : Prop where
  targets : t.tgt = s.tgt
  settings : ∀ m, (t.lane m).settings = (s.lane m).settings
  flights : ∀ m, m ≠ l → (t.lane m).flight = (s.lane m).flight

theorem onlyOn_of_lanes {l : Fin 4} {s t : State} (ht : t.tgt = s.tgt) (h : t.lanes = s.lanes) : s.OnlyOn l t where
  targets := ht
  settings m := by rw [State.lane, h]; rfl
  flights m _ := by rw [State.lane, h]; rfl

theorem onlyOn_setLane {s : State} {l : Fin 4} {x : Lane} (hx : x.settings = (s.lane l).settings) :
    s.OnlyOn l (s.setLane l x) where
  targets := rfl
  settings m := by
    rw [State.lane_setLane]
    split_ifs with h
    · rw [hx, h]
    · rfl
  flights m hm := by rw [State.lane_setLane, if_neg (Ne.symm hm)]

theorem State.OnlyOn.trans {l : Fin 4} {s t u : State} (h : s.OnlyOn l t) (h' : t.OnlyOn l u) : s.OnlyOn l u where
  targets := h'.targets.trans h.targets
  settings m := (h'.settings m).trans (h.settings m)
  flights m hm := (h'.flights m hm).trans (h.flights m hm)

theorem tgt_recordEnd (s : State) (g : Fin 8) (i : Nat) (e : RecordEnd) : (s.recordEnd g i e).tgt = s.tgt :=
  congrArg (fun x => x.2.1) (besideReports_recordEnd s g i e)

theorem onlyOn_recordEnd (l : Fin 4) (s : State) (g : Fin 8) (i : Nat) (e : RecordEnd) : s.OnlyOn l (s.recordEnd g i e) :=
  onlyOn_of_lanes (tgt_recordEnd ..) (lanes_recordEnd ..)

theorem tgt_dropQueued (s : State) (p : Job → Bool) : (s.dropQueued p).tgt = s.tgt := by
  unfold State.dropQueued
  refine foldl_keeps (P := fun t => t.tgt = s.tgt) (fun t l ht => ?_) _ s rfl
  exact ht

theorem onlyOn_dropQueued (l : Fin 4) (s : State) (p : Job → Bool) : s.OnlyOn l (s.dropQueued p) where
  targets := tgt_dropQueued s p
  settings m := by rw [lane_dropQueued]
  flights m _ := by rw [lane_dropQueued]

theorem onlyOn_setLoop (l : Fin 4) (s : State) (n : Fin 4) (e : LoopEntry) : s.OnlyOn l (s.setLoop n e) :=
  onlyOn_of_lanes rfl rfl

theorem onlyOn_notify (l : Fin 4) (s : State) (c : Byte) (p : List Byte) (u : Bool) : s.OnlyOn l (s.notify c p u) :=
  onlyOn_of_lanes rfl rfl

theorem onlyOn_drawn (l : Fin 4) (s : State) : s.OnlyOn l s.drawn := onlyOn_of_lanes rfl rfl

/-- A loop that faults withdraws its queued jobs (R120). -/
theorem onlyOn_faultLoop (l : Fin 4) (s : State) (n : Fin 4) (k : LoopJobKind) (t : Fin 16) (reg : Half) (b : Byte) :
    s.OnlyOn l (s.faultLoop n k t reg b) :=
  (((onlyOn_dropQueued l s (Job.ofLoop n)).trans (onlyOn_setLoop l _ n _)).trans (onlyOn_setLoop l _ n _)).trans
    (onlyOn_notify l _ _ _ _)

/-- A loop job that ends without success withdraws queued jobs at most (R118, R120). -/
theorem onlyOn_loopJobEnd {e : LoopEnd} (he : ∀ v, e ≠ .success v) (l : Fin 4) (s : State) (n : Fin 4) (k : LoopJobKind)
    (t : Fin 16) (reg : Half) : s.OnlyOn l (s.loopJobEnd n k t reg e) := by
  have counted := onlyOn_setLoop l s n { s.loop n with jobsOut := (s.loop n).jobsOut - 1 }
  simp only [State.loopJobEnd]
  split_ifs
  · exact counted
  · cases e with
    | success v => exact absurd rfl (he v)
    | failed r => exact counted.trans (onlyOn_faultLoop ..)
    | skipped => exact counted.trans (onlyOn_faultLoop ..)
    | dropped => exact counted.trans (onlyOn_setLoop ..)

theorem onlyOn_dispatchTo (s : State) (l : Fin 4) (j : Job) (t : Fin 16) : s.OnlyOn l (s.dispatchTo l j t) := by
  simp only [State.dispatchTo]
  split_ifs
  · unfold State.turnedAway
    split
    · exact (onlyOn_recordEnd l s _ _ _).trans (onlyOn_drawn l _)
    · exact onlyOn_recordEnd l s _ _ _
    · exact onlyOn_loopJobEnd (by simp) l s _ _ _ _
    · exact onlyOn_of_lanes rfl rfl
  · unfold State.skipped
    split
    · exact onlyOn_recordEnd l s _ _ _
    · exact onlyOn_loopJobEnd (by simp) l s _ _ _ _
    · exact onlyOn_of_lanes rfl rfl
  · exact onlyOn_setLane rfl

theorem onlyOn_dispatch (s : State) (l : Fin 4) (j : Job) : s.OnlyOn l (s.dispatch l j) := by
  unfold State.dispatch
  split
  · exact onlyOn_setLane rfl
  · exact (onlyOn_setLoop l s _ _).trans (onlyOn_recordEnd l (s.applySetpoint _ _) _ _ _)
  · exact onlyOn_dispatchTo s l _ _
  · exact onlyOn_dispatchTo s l _ _
  · exact onlyOn_dispatchTo s l _ _
  · exact onlyOn_dispatchTo s l _ _
  · split_ifs
    · exact onlyOn_loopJobEnd (by simp) l s _ _ _ _
    · exact onlyOn_dispatchTo s l _ _
  · exact onlyOn_dispatchTo s l _ _

/-! ## The lanes' taking (R39, R40) -/

theorem takeHead_eq {s : State} {l : Fin 4} {j : Job} {q : List Job} (hf : (s.lane l).flight = none)
    (hq : (s.lane l).queue = j :: q) :
    s.takeHead l = (s.setLane l { s.lane l with queue := q }).dispatch l j := by
  simp only [State.takeHead, hf, hq]

theorem onlyOn_takeHead (s : State) (l : Fin 4) : s.OnlyOn l (s.takeHead l) := by
  cases hf : (s.lane l).flight with
  | some f => simp only [State.takeHead, hf]; exact onlyOn_of_lanes rfl rfl
  | none =>
    cases hq : (s.lane l).queue with
    | nil => simp only [State.takeHead, hf, hq]; exact onlyOn_of_lanes rfl rfl
    | cons j q =>
      rw [takeHead_eq hf hq]
      exact (onlyOn_setLane (x := { s.lane l with queue := q }) rfl).trans (onlyOn_dispatch ..)

/-- With no lane ready no job is taken. -/
theorem takeHeads_rest {s : State} (h : s.readyLanes = []) (n : Nat) : State.takeHeads n s = s := by
  cases n with
  | zero => rfl
  | succ n => rw [State.takeHeads, h]; rfl

/-- With a lane ready one of those that are takes its head (R40). -/
theorem takeHeads_ready {s : State} (h : s.readyLanes ≠ []) (n : Nat) :
    ∃ l ∈ s.readyLanes, State.takeHeads (n + 1) s = State.takeHeads n (s.drawn.takeHead l) := by
  obtain ⟨l, hl, hpick⟩ := oneOf_isSome (Config.laneFirst s.fresh) h
  exact ⟨l, hl, by rw [State.takeHeads, hpick]⟩

theorem readyLanes_eq_nil_iff (s : State) :
    s.readyLanes = [] ↔ ∀ l, (s.lane l).flight ≠ none ∨ (s.lane l).queue = [] := by
  rw [List.eq_nil_iff_forall_not_mem]
  refine forall_congr' fun l => ?_
  rw [mem_readyLanes]
  tauto

/-- The lanes' taking leaves the targets, the settings, and every job in flight. -/
theorem takeHeads_keeps (n : Nat) (s : State) :
    (State.takeHeads n s).tgt = s.tgt ∧ ∀ l, ((State.takeHeads n s).lane l).settings = (s.lane l).settings ∧
      ((s.lane l).flight ≠ none → ((State.takeHeads n s).lane l).flight = (s.lane l).flight) := by
  induction n generalizing s with
  | zero => exact ⟨rfl, fun _ => ⟨rfl, fun _ => rfl⟩⟩
  | succ n ih =>
    by_cases hr : s.readyLanes = []
    · rw [takeHeads_rest hr]
      exact ⟨rfl, fun _ => ⟨rfl, fun _ => rfl⟩⟩
    · obtain ⟨l, hl, h⟩ := takeHeads_ready hr n
      have idle := ((mem_readyLanes s l).1 hl).1
      have taken : s.OnlyOn l (s.drawn.takeHead l) := (onlyOn_drawn l s).trans (onlyOn_takeHead s.drawn l)
      obtain ⟨iht, ihl⟩ := ih (s.drawn.takeHead l)
      rw [h]
      refine ⟨iht.trans taken.targets, fun m => ⟨(ihl m).1.trans (taken.settings m), fun hm => ?_⟩⟩
      have same := taken.flights m fun hml => hm (hml ▸ idle)
      rw [(ihl m).2 (same ▸ hm), same]

/-- The records and the pins of the groups, the pool, and the arm list. -/
def State.holdings (s : State) : (Fin 8 → List Record × Nat) × Nat × List ArmEntry :=
  (fun g => ((s.group g).records, (s.group g).pins), s.gtb.free, s.sau.arm)

theorem holdings_setGroup {s : State} {g : Fin 8} {e : GroupEntry} (hr : e.records = (s.group g).records)
    (hp : e.pins = (s.group g).pins) : (s.setGroup g e).holdings = s.holdings := by
  refine Prod.ext (funext fun g' => ?_) rfl
  simp only [State.holdings, State.group_setGroup]
  split_ifs with h
  · rw [hr, hp, h]
  · rfl

/-- No record's end takes or frees a record (R84, R89). -/
theorem holdings_recordEnd (s : State) (g : Fin 8) (i : Nat) (e : RecordEnd) :
    (s.recordEnd g i e).holdings = s.holdings := by
  have counted : (s.setGroup g ((s.group g).counted i e)).holdings = s.holdings :=
    holdings_setGroup (by cases e <;> rfl) (by cases e <;> rfl)
  simp only [State.recordEnd]
  split_ifs
  · rfl
  · rw [← counted]
    exact holdings_setGroup (s := s.setGroup g ((s.group g).counted i e)) rfl rfl
  · exact counted

theorem recordSide_holdings (x : (Fin 8 → List Record × Nat) × Nat × List ArmEntry) :
    RecordSide fun s => s.holdings = x where
  frame s t h hs := by
    rw [← hs]
    simp only [State.holdings, State.group, gtb_of_ledger h, sau_of_ledger h]
  ended s g i e hs := (holdings_recordEnd s g i e).trans hs
  flags _ _ _ _ hs := hs

/-- The lane side keeps the places of the reply queue that are in use: a reply takes the place of its request (R194). -/
theorem laneSide_places (n : Nat) : LaneSide fun s => s.hpt.placesUsed = n where
  group _ _ _ _ h := h
  account _ _ _ h := h
  target _ _ _ h := h
  lane _ _ _ h := h
  loop _ _ _ h := h
  sync _ _ h := h
  notice s c p u h := by
    obtain ⟨replies, outstanding⟩ := notify_replies s c p u
    rw [Hpt.placesUsed, replies, outstanding, ← h, Hpt.placesUsed]
  reply s tag st r h := by
    rw [← h]
    simp only [State.answer, Hpt.answer]
    split
    · rfl
    · rename_i o ho
      have mem := List.mem_of_find?_eq_some ho
      have erased := List.length_eraseP_of_mem (p := fun x : Outstanding => x.tag == tag) mem
        (List.find?_some (p := fun x : Outstanding => x.tag == tag) ho)
      have pos := List.length_pos_of_mem mem
      simp only [Hpt.placesUsed, erased, List.length_append, List.length_singleton]
      omega
  draw _ h := h

/-- Settles O20: GROUP.APPLY by the state of the group; the lanes' taking head by head, then by what it keeps. -/
theorem groupApplyLaunches : Obligations.GroupApplyLaunches := by
  refine ⟨fun s h g ha => ⟨fun hst => ?wrong, fun hst => ?launch⟩, fun s => ?taking⟩
  case wrong =>
    refine taking_answered ha ?_
    rw [ownGroupApply, inRange_natByte_8]
    simp [hst]
  case launch =>
    refine (taking_request ha 0x19#8 _).trans ?_
    rw [ownGroupApply, inRange_natByte_8]
    simp only [group_accepted, hst, ne_eq, not_true, if_false]
  case taking =>
    obtain ⟨targets, lanes⟩ := takeHeads_keeps (s.queuedCount fun _ => true) s
    have outside := settleLanes_outside s
    simp only [State.outside, Prod.mk.injEq] at outside
    obtain ⟨hpins, hpsc, hsuc, hnv, -⟩ := outside
    have holdings := (recordSide_holdings s.holdings).settleLanes rfl
    simp only [State.holdings, Prod.mk.injEq] at holdings
    obtain ⟨hgroups, hfree, harm⟩ := holdings
    refine ⟨rfl, rfl, fun n => ⟨fun hrest => ?_, fun ⟨l, hf, hq⟩ => ?_⟩, fun l => ⟨(lanes l).1, (lanes l).2,
      laneLaw_settleLanes s l⟩, fun g => Prod.mk.inj (congrFun hgroups g), hfree, targets, harm, hpsc, hsuc, hnv, hpins,
      (laneSide_places _).settleLanes rfl⟩
    · exact takeHeads_rest ((readyLanes_eq_nil_iff s).2 hrest) _
    · have ready : s.readyLanes ≠ [] := List.ne_nil_of_mem ((mem_readyLanes s l).2 ⟨hf, hq⟩)
      obtain ⟨m, hm, h⟩ := takeHeads_ready ready n
      obtain ⟨hmf, hmq⟩ := (mem_readyLanes s m).1 hm
      obtain ⟨j, q, hjq⟩ := List.exists_cons_of_ne_nil hmq
      exact ⟨m, j, q, hmf, hjq, by rw [h, takeHead_eq (s := s.drawn) hmf hjq]; rfl⟩

end Sys2Proof.Machine
end

section
/-! SUPPORT. Where the jobs are, said once: a job leaves its lane for the hand of the step, which ends it or puts it in flight
(R39, R40, R53). The laws that count jobs are kept through the lanes by what they say of each of these moves. -/

namespace Sys2Proof.Machine

/-! ## The work under way -/

/-- What the laws that count jobs speak of: the jobs of each lane, the records that each launch waits for, and each loop's
running, cycle and `jobs out`. -/
def State.work (s : State) : (Fin 4 → List Job) × (Fin 8 → Nat) × (Fin 4 → Bool × Cycle × Nat) :=
  (fun l => (s.lane l).jobs, fun g => (s.account g).pending,
    fun n => ((s.loop n).state.running, (s.loop n).cycle, (s.loop n).jobsOut))

/-- The jobs of a kind, on the lanes and in hand. -/
def State.jobCount (s : State) (hand : List Job) (p : Job → Bool) : Nat :=
  ∑ l, (s.lane l).jobs.countP p + hand.countP p

theorem jobCount_nil (s : State) (p : Job → Bool) : s.jobCount [] p = s.queuedCount p + s.flightCount p :=
  countP_jobs s p

theorem jobCount_of_work {s t : State} (h : t.work = s.work) (hand : List Job) (p : Job → Bool) :
    t.jobCount hand p = s.jobCount hand p := by
  have jobs (l : Fin 4) : (t.lane l).jobs = (s.lane l).jobs := congrFun (congrArg Prod.fst h) l
  simp only [State.jobCount, jobs]

/-- Jobs that move between a lane and the hand are counted once. -/
theorem jobCount_setLane {s : State} {l : Fin 4} {x : Lane} {hand hand' : List Job}
    (h : (x.jobs ++ hand').Perm ((s.lane l).jobs ++ hand)) (p : Job → Bool) :
    (s.setLane l x).jobCount hand' p = s.jobCount hand p := by
  have moved : x.jobs.countP p + hand'.countP p = (s.lane l).jobs.countP p + hand.countP p := by
    rw [← List.countP_append, ← List.countP_append]
    exact h.countP_eq p
  have others := sum_change (f := fun m => (s.lane m).jobs.countP p)
    (f' := fun m => ((s.setLane l x).lane m).jobs.countP p) l fun m hm => by
      rw [State.lane_setLane, if_neg (Ne.symm hm)]
  rw [State.lane_setLane_self] at others
  simp only [State.jobCount]
  omega

/-! ## A property of the jobs through the lanes -/

/-- A property of the work under way, with the jobs in hand, that each move of a job keeps: between a lane and the hand, and
from the hand to its end. -/
structure JobSide (P : List Job → State → Prop) : Prop where
  work : ∀ {hand} {s t : State}, t.work = s.work → P hand s → P hand t
  lane : ∀ {hand hand'} (s : State) l (x : Lane), (x.jobs ++ hand').Perm ((s.lane l).jobs ++ hand) →
    P hand s → P hand' (s.setLane l x)
  record : ∀ (s : State) g i r e, P [.record g i r] s → P [] (s.recordEnd g i e)
  loop : ∀ (s : State) n k t reg v e, P [.loop n k t reg v] s → P [] (s.loopJobEnd n k t reg e)
  read : ∀ (s : State) tag t reg, P [.read tag t reg] s ↔ P [] s

theorem work_setLoop {s : State} {n : Fin 4} {e : LoopEntry} (hr : e.state.running = (s.loop n).state.running)
    (hc : e.cycle = (s.loop n).cycle) (hj : e.jobsOut = (s.loop n).jobsOut) : (s.setLoop n e).work = s.work := by
  refine congrArg (fun x => (_, _, x)) (funext fun m => ?_)
  rw [State.loop_setLoop]
  split_ifs with h
  · rw [hr, hc, hj, h]
  · rfl

/-- A new setting of a lane that leaves its jobs. -/
theorem work_setLane {s : State} {l : Fin 4} {x : Lane} (hx : x.jobs = (s.lane l).jobs) :
    (s.setLane l x).work = s.work := by
  refine congrArg (fun x => (x, _, _)) (funext fun m => ?_)
  rw [State.lane_setLane]
  split_ifs with h
  · rw [hx, h]
  · rfl

theorem work_foldl {α : Type} {f : State → α → State} (h : ∀ s a, (f s a).work = s.work) (l : List α) (s : State) :
    (l.foldl f s).work = s.work :=
  foldl_keeps (P := fun t => t.work = s.work) (fun t a ht => (h t a).trans ht) l s rfl

/-- A hand-on changes what loops will write, not their jobs (R122). -/
theorem work_handOn (s : State) (t : Fin 16) (w : List (Half × Val)) : (s.handOn t w).work = s.work := by
  refine work_foldl (fun u n => ?_) _ s
  simp only [State.adopt]
  split
  · rfl
  · split_ifs with h
    · exact work_setLoop (by rw [h.1]; rfl) rfl rfl
    · rfl

/-- A SETPOINT record takes a settled loop back to its track (R125). -/
theorem work_applySetpoint (s : State) (n : Fin 4) (v : Val) : (s.applySetpoint n v).work = s.work := by
  refine work_setLoop ?_ rfl rfl
  simp only
  split_ifs with h
  · rw [h]; rfl
  · rfl

theorem work_onBus (s : State) (l : Fin 4) (w : List BusSym) : (s.onBus l w).work = s.work := work_setLane rfl

/-- The job in flight stays the same job. -/
theorem work_setFlight {s : State} {l : Fin 4} {f f' : Flight} (hf : (s.lane l).flight = some f) (hj : f'.job = f.job) :
    (s.setFlight l (some f')).work = s.work :=
  work_setLane (by simp only [Lane.jobs, hf, hj])

theorem work_startAttempt {s : State} {l : Fin 4} {f f' : Flight} (hf : (s.lane l).flight = some f)
    (hj : f'.job = f.job) : (s.startAttempt l f').work = s.work := by
  unfold State.startAttempt
  refine work_setFlight hf ?_
  split_ifs <;> exact hj

theorem work_reportFault (s : State) (f : Flight) (r : FaultReason) : (s.reportFault f r).work = s.work := by
  simp only [State.reportFault, State.faultTarget]
  split
  · rfl
  · split_ifs <;> rfl

namespace JobSide

variable {P : List Job → State → Prop} (k : JobSide P) {s : State}
include k

/-! ### From the hand to a lane, and back -/

/-- The job in flight comes to hand. -/
theorem landed {l : Fin 4} {f : Flight} (hf : (s.lane l).flight = some f) (hs : P [] s) :
    P [f.job] (s.setFlight l none) := by
  refine k.lane s l _ ?_ hs
  simp only [Lane.jobs, hf, List.nil_append, List.append_nil]
  exact List.perm_append_comm

/-- The head of the queue comes to hand. -/
theorem headTaken {l : Fin 4} {j : Job} {q : List Job} (hf : (s.lane l).flight = none)
    (hq : (s.lane l).queue = j :: q) (hs : P [] s) : P [j] (s.setLane l { s.lane l with queue := q }) := by
  refine k.lane s l _ ?_ hs
  simp only [Lane.jobs, hf, hq, List.nil_append, List.append_nil]
  exact List.perm_append_comm

/-- The job in hand is put in flight on a lane that has none there. -/
theorem started {l : Fin 4} {f : Flight} (hf : (s.lane l).flight = none) (hs : P [f.job] s) :
    P [] (s.setFlight l (some f)) := by
  refine k.lane s l _ ?_ hs
  simp only [Lane.jobs, hf, List.nil_append, List.append_nil]
  exact List.perm_append_comm

/-- The job in hand joins a queue (R39). -/
theorem queued {l : Fin 4} {j : Job} {hand : List Job} (hs : P (j :: hand) s) : P hand (s.appendJob l j) := by
  refine k.lane s l _ ?_ hs
  simp only [Lane.jobs, List.append_assoc, List.singleton_append, List.Perm.refl]

/-! ### Dispatch (R40 to R43, R55) -/

theorem turnedAway {j : Job} (hs : P [j] s) : P [] (s.turnedAway j) := by
  unfold State.turnedAway
  split
  · exact k.work (by rfl) (k.record s _ _ _ _ hs)
  · exact k.record s _ _ _ _ hs
  · exact k.loop s _ _ _ _ _ _ hs
  · exact k.work (by rfl) ((k.read s _ _ _).1 hs)

theorem skipped {j : Job} (hs : P [j] s) : P [] (s.skipped j) := by
  cases j with
  | record g i r => exact k.record s _ _ _ _ hs
  | loop n kd t reg v => exact k.loop s _ _ _ _ _ _ hs
  | read tag t reg => exact k.work (by rfl) ((k.read s _ _ _).1 hs)

theorem startAttempt {l : Fin 4} {f : Flight} (hf : (s.lane l).flight = none) (hs : P [f.job] s) :
    P [] (s.startAttempt l f) := by
  unfold State.startAttempt
  refine k.started hf ?_
  split_ifs <;> exact hs

theorem dispatchTo {l : Fin 4} {j : Job} (t) (hf : (s.lane l).flight = none) (hs : P [j] s) :
    P [] (s.dispatchTo l j t) := by
  simp only [State.dispatchTo]
  split_ifs
  · exact k.turnedAway hs
  · exact k.skipped hs
  · exact k.startAttempt hf hs

/-- The job at a lane's head ends at its check, or is put in flight. -/
theorem dispatch {l : Fin 4} {j : Job} (hf : (s.lane l).flight = none) (hs : P [j] s) : P [] (s.dispatch l j) := by
  unfold State.dispatch
  split
  · exact k.started hf hs
  · exact k.record _ _ _ _ _ (k.work (work_applySetpoint ..) hs)
  · exact k.dispatchTo _ hf hs
  · exact k.dispatchTo _ hf hs
  · exact k.dispatchTo _ hf hs
  · exact k.dispatchTo _ hf hs
  · split_ifs
    · exact k.loop s _ _ _ _ _ _ hs
    · exact k.dispatchTo _ hf hs
  · exact k.dispatchTo _ hf hs

theorem takeHead (l) (hs : P [] s) : P [] (s.takeHead l) := by
  unfold State.takeHead
  split
  · rename_i j q hf hq
    exact k.dispatch (by rw [State.lane_setLane_self]; exact hf) (k.headTaken hf hq hs)
  · exact hs
  · exact hs

theorem settleLanes (hs : P [] s) : P [] s.settleLanes := by
  unfold State.settleLanes
  generalize s.queuedCount _ = n
  induction n generalizing s with
  | zero => exact hs
  | succ n ih =>
    simp only [State.takeHeads]
    split
    · exact hs
    · exact ih (k.takeHead _ (k.work (by rfl) hs))

theorem takePast (g l n) (hs : P [] s) : P [] (State.takePast g l n s) := by
  induction n generalizing s with
  | zero => exact hs
  | succ n ih =>
    simp only [State.takePast]
    split_ifs
    · exact hs
    · exact ih (k.takeHead l hs)

/-! ### Ends of jobs (R49, R53) -/

theorem handOver (l g t w) (hs : P [] s) : P [] (s.handOver l g t w) := by
  unfold State.handOver
  split_ifs
  · exact k.work (work_handOn ..) (k.takePast _ _ _ (k.work (by rfl) hs))
  · exact k.work (work_handOn ..) (k.work (by rfl) hs)
  · exact k.work (work_handOn ..) hs

theorem recordOver {g i r} (l m e) (hs : P [.record g i r] s) : P [] (s.recordOver l g i r m e) := by
  have h := k.record s g i r e hs
  simp only [State.recordOver]
  split
  · exact h
  · exact k.handOver _ _ _ _ h

theorem writeDone (l) {f : Flight} (hs : P [f.job] s) : P [] (s.writeDone l f) := by
  simp only [State.writeDone]
  split
  · rename_i hj; exact k.recordOver _ _ _ (hj ▸ hs)
  · rename_i hj; exact k.loop s _ _ _ _ _ _ (hj ▸ hs)
  · rename_i hj; exact (k.read s _ _ _).1 (hj ▸ hs)

theorem jobFailed (l) {f : Flight} (r) (hs : P [f.job] s) : P [] (s.jobFailed l f r) := by
  unfold State.jobFailed
  split
  · rename_i hj; exact k.recordOver _ _ _ (hj ▸ hs)
  · rename_i hj; exact k.record s _ _ _ _ (hj ▸ hs)
  · rename_i hj; exact k.loop s _ _ _ _ _ _ (hj ▸ hs)
  · rename_i hj
    have h := (k.read s _ _ _).1 (hj ▸ hs)
    cases r
    · exact k.work (by rfl) h
    · exact k.work (by rfl) h
    · exact h

section
variable {l : Fin 4} {f : Flight} (hf : (s.lane l).flight = some f) (hs : P [] s)
include hf hs

theorem attemptFailed (r) : P [] (s.attemptFailed l f r) := by
  simp only [State.attemptFailed]
  split_ifs
  · exact k.work (work_startAttempt hf rfl) hs
  · exact k.jobFailed l r (k.work (work_reportFault ..) (k.landed hf hs))

theorem itemDone : P [] (s.itemDone l f) := by
  have h := k.landed hf hs
  unfold State.itemDone
  split
  · rename_i hj
    split_ifs
    · exact k.writeDone l h
    · exact k.recordOver _ _ _ (hj ▸ h)
    · exact k.work (work_startAttempt hf rfl) hs
  all_goals exact k.writeDone l h

theorem pollRead {g i r} (hj : f.job = .record g i r) (m e a v) : P [] (s.pollRead l f g i m e a v) := by
  have h := k.landed hf hs
  rw [hj] at h
  simp only [State.pollRead]
  split_ifs
  · exact k.record _ _ _ _ _ h
  · exact k.record _ _ _ _ _ h
  · exact k.work (work_setFlight hf rfl) hs
  · exact k.record _ _ _ _ _ h

theorem readDone (v) : P [] (s.readDone l f v) := by
  have h := k.landed hf hs
  unfold State.readDone
  split
  · rename_i hj; exact k.pollRead hf hs hj _ _ _ v
  · exact hs
  · rename_i hj; exact k.loop _ _ _ _ _ _ _ (hj ▸ h)
  · rename_i hj; exact k.work (by rfl) ((k.read _ _ _ _).1 (hj ▸ h))

theorem acked (d) : P [] (s.acked l f d) := by
  simp only [State.acked]
  split
  · split_ifs
    · exact k.work (work_setFlight hf rfl) hs
    · exact k.itemDone hf hs
  · split_ifs
    · exact k.itemDone hf hs
    · exact k.attemptFailed hf hs _
  · exact k.readDone hf hs _
  · exact hs

end

/-! ### Events of the lanes -/

theorem transactionEnd (l e) (hs : P [] s) : P [] (Sys2Proof.Machine.transactionEnd l e s) := by
  have h (w) : P [] (s.onBus l w) := k.work (work_onBus ..) hs
  unfold Sys2Proof.Machine.transactionEnd
  split
  · exact hs
  · rename_i f hf
    have hf' (w) : ((s.onBus l w).lane l).flight = some f := (State.lane_onBus_flight ..).trans hf
    split_ifs
    · exact hs
    · cases e with
      | ack d =>
        simp only
        split_ifs
        · exact k.settleLanes (k.acked (hf' _) (h _) _)
        · exact hs
      | nak n =>
        simp only
        split_ifs
        · exact k.settleLanes (k.attemptFailed (hf' _) (h _) _)
        · exact hs

theorem clockHoldTimeout (l) (hs : P [] s) : P [] (Sys2Proof.Machine.clockHoldTimeout l s) := by
  unfold Sys2Proof.Machine.clockHoldTimeout
  split
  · exact hs
  · rename_i f hf
    split_ifs
    · have h (w) : P [] (s.onBus l w).drawn := k.work (work_onBus s l w) hs
      have hf' (w) : ((s.onBus l w).drawn.lane l).flight = some f := (State.lane_onBus_flight s l l w).trans hf
      exact k.settleLanes (k.attemptFailed (hf' _) (h _) _)
    · exact hs

theorem pollGapExpiry (l) (hs : P [] s) : P [] (Sys2Proof.Machine.pollGapExpiry l s) := by
  unfold Sys2Proof.Machine.pollGapExpiry
  split
  · exact hs
  · rename_i f hf
    split_ifs
    · exact k.work (work_startAttempt hf rfl) hs
    · exact hs

theorem waitExpiry (l) (hs : P [] s) : P [] (Sys2Proof.Machine.waitExpiry l s) := by
  unfold Sys2Proof.Machine.waitExpiry
  split
  · rename_i hf
    exact k.settleLanes (k.record _ _ _ _ _ (k.landed hf hs))
  · exact hs
  · exact hs

end JobSide

end Sys2Proof.Machine
end

section
/-! SUPPORT. The store, the loads, the start's steps and most requests leave the work under way alone. -/

namespace Sys2Proof.Machine

/-! ## The store -/

theorem work_replyTo (s : State) (op : StoreOp) (st : Status) (r : List Byte) : (s.replyTo op st r).work = s.work := by
  unfold State.replyTo
  split <;> rfl

theorem work_answer (s : State) (tag : Byte) (st : Status) (r : List Byte) : (s.answer tag st r).work = s.work := rfl

theorem work_release (s : State) (g : Fin 8) : (s.release g).work = s.work := by
  unfold State.release
  split_ifs <;> rfl

theorem work_reserve (s : State) (g : Fin 8) : (s.reserve g).work = s.work := by
  unfold State.reserve
  split_ifs <;> rfl

theorem work_setOpSlot (s : State) (op : StoreOp) (x : SlotState) : (s.setOpSlot op x).work = s.work := by
  unfold State.setOpSlot
  split <;> rfl

theorem work_setEngine (s : State) (e : Engine) : (s.setEngine e).work = s.work := rfl

theorem work_setMem (s : State) (m : List Host.Cell) : (s.setMem m).work = s.work := rfl

theorem work_unpin (s : State) (g : Fin 8) : (s.unpin g).work = s.work := rfl

theorem work_startErase (s : State) (w : Work) : (s.startErase w).work = s.work := by
  unfold State.startErase
  rw [work_setEngine, work_setOpSlot, work_setMem]

theorem work_startOp (s : State) (op : StoreOp) : (s.startOp op).work = s.work := by
  unfold State.startOp
  split
  · rfl
  · split
    · rw [work_replyTo, work_unpin]
    · rw [work_startErase, work_unpin]
  · split
    · exact work_replyTo ..
    · exact work_startErase ..
  · exact work_startErase ..
  · split_ifs
    · exact work_replyTo ..
    · rfl

theorem work_choose (s : State) : s.choose.work = s.work := by
  unfold State.choose
  generalize s.psc.queue.length = n
  induction n generalizing s with
  | zero => rfl
  | succ n ih =>
    simp only [State.chooseFrom]
    split
    · exact (ih _).trans (work_startOp ..)
    · rfl

theorem work_engineFree (s : State) : s.engineFree.work = s.work := work_choose _

theorem work_judge (s : State) : s.judge.work = s.work := by
  unfold State.judge
  split
  · split_ifs <;> rfl
  · rfl

theorem work_accept (s : State) (k : StoreKind) (o : Option Byte) : (s.accept k o).work = s.work := by
  unfold State.accept
  rw [work_judge, work_choose]
  rfl

theorem work_chooseUnder (s : State) (x : Suspended) : (s.chooseUnder x).work = s.work := by
  unfold State.chooseUnder
  split <;> rfl

theorem work_suspend (s : State) (x : Suspended) : (s.suspend x).work = s.work := work_chooseUnder _ x

theorem work_nextPages (s : State) (w : Work) (l : List (Fin 16)) : (s.nextPages w l).work = s.work := by
  unfold State.nextPages
  split_ifs
  · exact work_suspend s _
  · rfl

theorem work_storeFault (s : State) (w : Work) (b : Byte) : (s.storeFault w b).work = s.work := by
  unfold State.storeFault
  rw [work_engineFree, work_replyTo, work_setOpSlot]

theorem work_saveDone (s : State) (w : Work) : (s.saveDone w).work = s.work := by
  unfold State.saveDone
  split
  · rw [work_engineFree, work_replyTo]; rfl
  · rw [work_engineFree, work_replyTo]

theorem work_eraseComplete (left : List (Nat × Byte)) (s : State) : (eraseComplete left s).work = s.work := by
  unfold eraseComplete
  split
  · simp only
    split_ifs
    · rw [work_storeFault]; rfl
    · split
      · rw [work_engineFree, work_replyTo]; rfl
      · rw [work_nextPages]; rfl
  · rfl

theorem work_pageProgramComplete (left : Option (List Byte)) (s : State) :
    (pageProgramComplete left s).work = s.work := by
  unfold pageProgramComplete
  split
  · simp only
    split_ifs
    · rw [work_storeFault]; rfl
    · rw [work_saveDone]; rfl
    · rw [work_nextPages]; rfl
  · rfl

theorem work_fuseProgramComplete (b : Bool) (s : State) : (fuseProgramComplete b s).work = s.work := by
  unfold fuseProgramComplete
  split
  · simp only
    split_ifs
    · rw [work_engineFree, work_replyTo]; rfl
    · rw [work_engineFree, work_replyTo]; rfl
  · rfl

theorem work_suspendEffect (s : State) : (suspendEffect s).work = s.work := by
  unfold suspendEffect
  split
  · split_ifs
    · rfl
    · exact work_suspend s _
    · rfl
  · rfl

theorem work_resumeGuardExpiry (s : State) : (resumeGuardExpiry s).work = s.work := by
  unfold resumeGuardExpiry
  split_ifs
  · exact work_judge _
  · rfl

theorem work_cancelOp (s : State) (op : StoreOp) : (s.cancelOp op).work = s.work := by
  unfold State.cancelOp
  split
  · rw [work_replyTo, work_unpin]
  · rw [work_replyTo, work_release]
  all_goals rfl

theorem work_stopLoad (s : State) : s.stopLoad.work = s.work := by
  unfold State.stopLoad
  split <;> rfl

theorem work_cancelStore (s : State) : s.cancelStore.work = s.work := by
  unfold State.cancelStore
  rw [work_choose, work_stopLoad]
  exact work_foldl work_cancelOp _ _

/-! ## Loads, the start's steps, and windows -/

theorem work_loadEnd (s : State) (op : StoreOp) (slot : Fin 32) (g : Fin 8) : (s.loadEnd op slot g).work = s.work := by
  unfold State.loadEnd State.loadGroup
  rw [work_replyTo]
  split
  · split_ifs <;> rfl
  all_goals exact work_release _ g

theorem work_startLoaded (s : State) (e : LoadEnd) : (s.startLoaded e).work = s.work := by
  unfold State.startLoaded State.armStart
  split
  · split_ifs <;> rfl
  all_goals rfl

theorem work_startStep (s : State) (e : LoadEnd) : (s.startStep e).work = s.work := by
  unfold State.startStep State.lastStep
  split_ifs
  · exact work_startLoaded s e
  · split
    all_goals exact work_startLoaded s e

theorem work_loadOver (s : State) (op : StoreOp) : (s.loadOver op).work = s.work := by
  unfold State.loadOver
  split
  · simp only
    split_ifs
    · rw [work_startStep, work_loadEnd]
    · exact work_loadEnd ..
  all_goals rfl

theorem work_imageReadComplete (s : State) : (imageReadComplete s).work = s.work := by
  unfold imageReadComplete
  split
  · rw [work_engineFree, work_loadOver]
  · rw [work_chooseUnder, work_loadOver]
  · rfl

theorem work_idled (s : State) : s.idled.work = s.work := by
  unfold State.idled
  split
  · split_ifs <;> rfl
  all_goals rfl

theorem work_directoryRebuild (s : State) : (directoryRebuild s).work = s.work := by
  unfold directoryRebuild
  split_ifs
  · simp only [State.work, State.lane, State.account, State.loop]
  · rfl

theorem work_startLoad (s : State) : s.startLoad.work = s.work := by
  unfold State.startLoad
  split
  · rw [work_accept]
    exact work_reserve s 0
  · rfl

theorem work_setSetup (s : State) (x : SetupStatus) : (s.setSetup x).work = s.work := rfl

/-- A setup record gives the lanes settings and the loops configurations (R181). -/
theorem work_applySetup (s : State) (x : Setup) : (s.applySetup x).work = s.work := by
  refine Prod.ext (funext fun l => ?_) (Prod.ext rfl (funext fun n => ?_))
  · simp [State.work, State.applySetup, State.lane, Lane.jobs]
  · simp only [State.work, State.applySetup, State.loop, Fin.getElem_fin, Vector.getElem_ofFn]
    split
    · rfl
    · unfold LoopEntry.withSetup
      split_ifs <;> rfl

theorem work_setLine (s : State) (line : Line) (x : SyncLine) : (s.setLine line x).work = s.work := by
  cases line <;> rfl

theorem work_closeWindow (s : State) (line : Line) : (s.closeWindow line).work = s.work := by
  obtain ⟨x, h, -⟩ := closeWindow_eq s line
  rw [h]
  exact work_setLine s line _

theorem work_levelChanged (s : State) (line : Line) (level : Bool) : (levelChanged line level s).work = s.work :=
  work_setLine ..

theorem work_freed (s : State) : s.freed.work = s.work := by
  unfold State.freed
  simp only
  split_ifs <;> rfl

theorem work_gapExpired (s : State) : (gapExpired s).work = s.work := by
  unfold gapExpired
  split
  · split
    · split <;> rfl
    all_goals rfl
  · rfl

/-! ## Requests -/

section
variable (tag : Byte) (s : State)

theorem work_ownGroupOpen (g : Byte) : (ownGroupOpen tag g s).work = s.work := by
  unfold ownGroupOpen
  repeat' split
  all_goals rfl

theorem work_ownGroupAdd (g : Byte) (r : RawRecord) : (ownGroupAdd tag g r s).work = s.work := by
  unfold ownGroupAdd
  repeat' split
  all_goals rfl

theorem work_ownGroupClose (g : Byte) : (ownGroupClose tag g s).work = s.work := by
  unfold ownGroupClose
  split
  · rfl
  · simp only
    split_ifs <;> rfl

theorem work_ownGroupDrop (g : Byte) : (ownGroupDrop tag g s).work = s.work := by
  unfold ownGroupDrop
  split
  · rfl
  · simp only
    split_ifs <;> rfl

theorem work_ownGroupEdit (g i : Byte) (v : List Val) : (ownGroupEdit tag g i v s).work = s.work := by
  unfold ownGroupEdit
  split
  · rfl
  · simp only
    split_ifs
    · rfl
    · repeat' split
      all_goals rfl

theorem work_ownGroupQuery (g : Byte) : (ownGroupQuery tag g s).work = s.work := by
  unfold ownGroupQuery
  split <;> rfl

theorem work_ownGroupRead (g f : Byte) : (ownGroupRead tag g f s).work = s.work := by
  unfold ownGroupRead
  split
  · rfl
  · simp only
    split_ifs <;> rfl

theorem work_ownGroupArm (g l x m : Byte) : (ownGroupArm tag g l x m s).work = s.work := by
  unfold ownGroupArm
  repeat' split
  all_goals rfl

theorem work_ownGroupDisarm (g : Byte) : (ownGroupDisarm tag g s).work = s.work := by
  unfold ownGroupDisarm
  repeat' split
  all_goals rfl

theorem work_ownTargetSet (t : Byte) (r : RawTarget) : (ownTargetSet tag t r s).work = s.work := by
  unfold ownTargetSet
  repeat' split
  all_goals rfl

theorem work_ownTargetQuery (t : Byte) : (ownTargetQuery tag t s).work = s.work := by
  unfold ownTargetQuery
  split <;> rfl

theorem work_ownTargetClear (t : Byte) : (ownTargetClear tag t s).work = s.work := by
  unfold ownTargetClear
  split <;> rfl

theorem work_ownLaneSet (n : Byte) (r : RawLane) : (ownLaneSet tag n r s).work = s.work := by
  unfold ownLaneSet
  split
  · rfl
  · split
    · rfl
    · simp only
      split_ifs
      · rfl
      · rfl
      · exact work_setLane rfl

theorem work_ownLaneQuery (n : Byte) : (ownLaneQuery tag n s).work = s.work := by
  unfold ownLaneQuery
  split <;> rfl

theorem work_ownSyncSet (l e : Byte) (w : Half) : (ownSyncSet tag l e w s).work = s.work := by
  unfold ownSyncSet
  split
  · split_ifs
    · exact work_setLine ..
    · rfl
  all_goals rfl

theorem work_ownSyncQuery (l : Byte) : (ownSyncQuery tag l s).work = s.work := by
  unfold ownSyncQuery
  split <;> rfl

theorem work_ownLoopSet (n : Byte) (r : RawLoop) : (ownLoopSet tag n r s).work = s.work := by
  unfold ownLoopSet
  split
  · rfl
  · split
    · rfl
    · split
      · rfl
      · split_ifs
        · rw [work_answer]
          exact work_setLoop rfl rfl rfl
        · rfl

theorem work_ownLoopQuery (n : Byte) : (ownLoopQuery tag n s).work = s.work := by
  unfold ownLoopQuery
  split
  · rfl
  · rw [work_answer]
    exact work_setLoop rfl rfl rfl

theorem work_ownSlotSave (g x : Byte) (l : Label) : (ownSlotSave tag g x l s).work = s.work := by
  unfold ownSlotSave
  split
  · split
    · rfl
    · simp only
      split_ifs
      · rfl
      · rfl
      · rw [work_accept]; rfl
  all_goals rfl

theorem work_ownSlotLoad (x g : Byte) : (ownSlotLoad tag x g s).work = s.work := by
  unfold ownSlotLoad
  split
  · split_ifs
    · rfl
    · rw [work_accept, work_reserve]
  all_goals rfl

theorem work_ownSlotErase (x : Byte) : (ownSlotErase tag x s).work = s.work := by
  unfold ownSlotErase
  repeat' split
  · rfl
  · rfl
  · exact work_accept ..

theorem work_ownSlotProtect (x : Byte) : (ownSlotProtect tag x s).work = s.work := by
  unfold ownSlotProtect
  split <;> rfl

theorem work_ownSlotUnprotect (x : Byte) : (ownSlotUnprotect tag x s).work = s.work := by
  unfold ownSlotUnprotect
  repeat' split
  all_goals rfl

theorem work_ownSlotLock (x : Byte) : (ownSlotLock tag x s).work = s.work := by
  unfold ownSlotLock
  split
  · rfl
  · split_ifs
    · rfl
    · exact work_accept ..

theorem work_ownSetupStart (d : RawDesignation) : (ownSetupStart tag d s).work = s.work := by
  unfold ownSetupStart
  split <;> rfl

end

end Sys2Proof.Machine
end

section
/-! SUPPORT. Every way a command can change the work under way, said once (`JobKept.exec`). -/

namespace Sys2Proof.Machine

/-! ## A frame is a request row (R190, R191) -/

/-- Taken as a whole step, `t` is what a request row comes to; or it is a request that leaves the work alone, or nothing. -/
def State.AsRow (s t : State) : Prop :=
  (∃ i, (requestOf i).isSome = true ∧ exec i s = .next t.arbitrated) ∨
  (∃ h c chk own, (∀ u : State, (own u).work = u.work) ∧ t = s.request h c chk own) ∨ t = s

section
variable {s : State} (hlive : s.live = true) (h : ReqHead) (c : Byte) (b : List Byte)
include hlive

/-- The row `i`, on a part that takes events. -/
theorem asRow_of_exec {f : State → State} {i : Instr} (hi : (requestOf i).isSome = true) (he : exec i s = s.taking f) :
    s.AsRow (f s) := .inl ⟨i, hi, he.trans (taking_live hlive f)⟩

theorem groupRequest_asRow : s.AsRow (groupRequest h c b s) := by
  unfold groupRequest
  split
  · exact asRow_of_exec hlive (i := .groupOpen h _) rfl rfl
  · exact asRow_of_exec hlive (i := .groupAdd h _ _) rfl rfl
  · exact asRow_of_exec hlive (i := .groupClose h _) rfl rfl
  · exact asRow_of_exec hlive (i := .groupDrop h _) rfl rfl
  · exact asRow_of_exec hlive (i := .groupEdit h _ _ _) rfl rfl
  · exact asRow_of_exec hlive (i := .groupQuery h _) rfl rfl
  · exact asRow_of_exec hlive (i := .groupRead h _ _) rfl rfl
  · exact asRow_of_exec hlive (i := .groupArm h _ _ _ _) rfl rfl
  · exact asRow_of_exec hlive (i := .groupDisarm h _) rfl rfl
  · exact asRow_of_exec hlive (i := .groupApply h _) rfl rfl
  · exact asRow_of_exec hlive (i := .groupAbort h _) rfl rfl
  · exact .inr (.inr rfl)

theorem laneRequest_asRow : s.AsRow (laneRequest h c b s) := by
  unfold laneRequest
  split
  · exact asRow_of_exec hlive (i := .targetSet h _ _) rfl rfl
  · exact asRow_of_exec hlive (i := .targetQuery h _) rfl rfl
  · exact asRow_of_exec hlive (i := .targetClear h _) rfl rfl
  · exact asRow_of_exec hlive (i := .targetRead h _ _) rfl rfl
  · exact asRow_of_exec hlive (i := .laneSet h _ _) rfl rfl
  · exact asRow_of_exec hlive (i := .laneQuery h _) rfl rfl
  · exact asRow_of_exec hlive (i := .syncSet h _ _ _) rfl rfl
  · exact asRow_of_exec hlive (i := .syncPulse h _) rfl rfl
  · exact asRow_of_exec hlive (i := .syncQuery h _) rfl rfl
  · exact .inr (.inr rfl)

theorem loopRequest_asRow : s.AsRow (loopRequest h c b s) := by
  unfold loopRequest
  split
  · exact asRow_of_exec hlive (i := .loopSet h _ _) rfl rfl
  · exact asRow_of_exec hlive (i := .loopStart h _) rfl rfl
  · exact asRow_of_exec hlive (i := .loopStop h _) rfl rfl
  · exact asRow_of_exec hlive (i := .loopQuery h _) rfl rfl
  · exact .inr (.inr rfl)

theorem reqPartReset_asRow : s.AsRow (reqPartReset h c s) := by
  unfold reqPartReset
  split_ifs
  · exact asRow_of_exec hlive (i := .partResetFull h) rfl rfl
  · exact asRow_of_exec hlive (i := .partResetSequencer h) rfl rfl
  · exact asRow_of_exec hlive (i := .partResetLanes h) rfl rfl
  · exact asRow_of_exec hlive (i := .partResetLoops h) rfl rfl
  · exact .inr (.inl ⟨h, _, _, _, fun u => work_answer u h.tag .badArg [], rfl⟩)

theorem storeRequest_asRow : s.AsRow (storeRequest h c b s) := by
  unfold storeRequest
  split
  · exact asRow_of_exec hlive (i := .slotSave h _ _ _) rfl rfl
  · exact asRow_of_exec hlive (i := .slotLoad h _ _) rfl rfl
  · exact asRow_of_exec hlive (i := .slotErase h _) rfl rfl
  · exact asRow_of_exec hlive (i := .slotProtect h _) rfl rfl
  · exact asRow_of_exec hlive (i := .slotUnprotect h _) rfl rfl
  · exact asRow_of_exec hlive (i := .slotLock h _) rfl rfl
  · exact asRow_of_exec hlive (i := .slotFreeze h) rfl rfl
  · exact asRow_of_exec hlive (i := .slotList h) rfl rfl
  · exact asRow_of_exec hlive (i := .setupSave h) rfl rfl
  · exact asRow_of_exec hlive (i := .setupStart h _) rfl rfl
  · exact asRow_of_exec hlive (i := .setupQuery h) rfl rfl
  · exact asRow_of_exec hlive (i := .partIdent h) rfl rfl
  · exact asRow_of_exec hlive (i := .partStatus h) rfl rfl
  · exact reqPartReset_asRow hlive h _
  · exact .inr (.inr rfl)

/-- A completed frame is a request row, a request that leaves the work alone, or nothing (R191, R192). -/
theorem frameTaken_asRow : s.AsRow (frameTaken h c b s) := by
  unfold frameTaken
  split
  · exact .inr (.inl ⟨h, c, _, id, fun _ => rfl, rfl⟩)
  · split_ifs
    · exact groupRequest_asRow hlive h c b
    · exact laneRequest_asRow hlive h c b
    · exact loopRequest_asRow hlive h c b
    · exact storeRequest_asRow hlive h c b

end

theorem work_fuseRead (s : State) : s.fuseRead.work = s.work := by
  simp only [State.work, State.fuseRead, State.lane, State.account, State.loop]

/-- A property of the work under way that each of its changes keeps, given what `A` says of the ledger. -/
structure JobKept (A : State → Prop) (P : List Job → State → Prop) : Prop extends JobSide P where
  known : ∀ {s t : State}, t.gtb = s.gtb → t.lsq = s.lsq → t.sau.arm = s.sau.arm → A s → A t
  launch : ∀ (s : State) g, A s → (s.group g).state = .ready → P [] s → P [] (s.launch none g)
  edge : ∀ (s : State) line, A s → P [] s → P [] (s.edgeMade line)
  start : ∀ (s : State) n, s.startRefusal n = none → P [] s → P [] (s.startLoop n)
  stop : ∀ (s : State) n, P [] s → P [] (s.stopLoop n)
  abort : ∀ (s : State) tag g, P [] s → P [] (s.abort tag g)
  cut : ∀ s : State, P [] s → P [] s.cutLanes
  cleared : ∀ s : State, (∀ l, (s.lane l).jobs = []) → P [] s → P [] s.resetGroups
  blocks : ∀ (s : State) c r, P [] (s.blocksReset c r)

namespace JobKept

variable {A : State → Prop} {P : List Job → State → Prop} (k : JobKept A P) {s : State}
include k

/-! ## Owners and events that touch the work -/

section
variable (hs : P [] s)
include hs

theorem ownTargetRead (tag t r) : P [] (Sys2Proof.Machine.ownTargetRead tag t r s) := by
  unfold Sys2Proof.Machine.ownTargetRead
  split
  · exact k.work (by rfl) hs
  · simp only
    split_ifs
    · exact k.work (by rfl) hs
    · exact k.work (by rfl) hs
    · exact k.settleLanes (k.queued ((k.read ..).2 hs))

theorem ownGroupAbort (tag g) : P [] (Sys2Proof.Machine.ownGroupAbort tag g s) := by
  unfold Sys2Proof.Machine.ownGroupAbort
  split
  · exact k.work (by rfl) hs
  · split_ifs
    · exact k.work (by rfl) hs
    · exact k.settleLanes (k.abort s _ _ hs)

theorem ownLoopStart (tag n) : P [] (Sys2Proof.Machine.ownLoopStart tag n s) := by
  unfold Sys2Proof.Machine.ownLoopStart
  split
  · exact k.work (by rfl) hs
  · split
    · exact k.work (by rfl) hs
    · rename_i h
      exact k.settleLanes (k.work (work_answer ..) (k.start s _ h hs))

theorem ownLoopStop (tag n) : P [] (Sys2Proof.Machine.ownLoopStop tag n s) := by
  unfold Sys2Proof.Machine.ownLoopStop
  split
  · exact k.work (by rfl) hs
  · split_ifs
    · exact k.work (by rfl) hs
    · exact k.work (work_answer ..) (k.stop s _ hs)

theorem ownPartResetSequencer (tag) : P [] (Sys2Proof.Machine.ownPartResetSequencer tag s) := by
  have jobs (l : Fin 4) : (s.cutLanes.cancelStore.lane l).jobs = [] :=
    (congrFun (congrArg Prod.fst (work_cancelStore s.cutLanes)) l).trans (cutLanes_jobs s l)
  exact k.work (work_answer ..) (k.cleared _ jobs (k.work (work_cancelStore _) (k.cut s hs)))

theorem ownPartResetLanes (tag) : P [] (Sys2Proof.Machine.ownPartResetLanes tag s) :=
  k.work (work_answer ..) (k.cut s hs)

theorem ownPartResetLoops (tag) : P [] (Sys2Proof.Machine.ownPartResetLoops tag s) := by
  unfold Sys2Proof.Machine.ownPartResetLoops
  refine k.work (work_answer ..) (foldl_keeps (P := P []) (fun t n ht => ?_) _ s hs)
  exact k.work (work_setLoop rfl rfl rfl) (k.stop t n ht)

theorem autostart (n) : P [] (s.autostart n) := by
  unfold State.autostart
  split_ifs
  · split
    · exact k.work (by rfl) hs
    · rename_i h
      exact k.work (by rfl) (k.start s n h hs)
  · exact k.work (by rfl) hs

theorem setupAreaRead : P [] (Sys2Proof.Machine.setupAreaRead s) := by
  unfold Sys2Proof.Machine.setupAreaRead
  split_ifs
  · generalize readSetup s.nv.mem = x
    obtain ⟨a, y⟩ := x
    have h : P [] (match y with | none => s.setSetup a | some x => (s.setSetup a).applySetup x) := by
      cases y with
      | none => exact k.work (work_setSetup ..) hs
      | some x => exact k.work ((work_applySetup ..).trans (work_setSetup ..)) hs
    exact k.settleLanes (k.work (work_startLoad _) (foldl_keeps (P := P []) (fun _ n h => k.autostart h n) _ _ h))
  · exact hs

omit hs in
theorem beginStart (c x) : P [] (s.beginStart c x) := k.work (work_fuseRead _) (k.blocks _ (Suc.begun c) (baudOf x))

omit hs in
theorem hold (b) : P [] (s.hold b) := k.blocks _ _ _

omit hs in
theorem powerOn (x) : P [] (Sys2Proof.Machine.powerOn x s) := by
  unfold Sys2Proof.Machine.powerOn
  split
  · exact k.beginStart _ x
  · exact k.hold true

theorem resetnRelease (x) : P [] (Sys2Proof.Machine.resetnRelease x s) := by
  unfold Sys2Proof.Machine.resetnRelease
  split
  · exact hs
  · split
    · exact k.beginStart _ x
    · exact k.work (by rfl) hs

theorem transmitEnd (x) : P [] (Sys2Proof.Machine.transmitEnd x s) := by
  unfold Sys2Proof.Machine.transmitEnd
  split
  · exact hs
  · split_ifs
    · exact k.beginStart _ _
    · exact k.work (work_freed s) hs

end

section
variable (ha : A s) (hs : P [] s)
include ha hs

theorem ownGroupApply (tag g) : P [] (Sys2Proof.Machine.ownGroupApply tag g s) := by
  unfold Sys2Proof.Machine.ownGroupApply
  split
  · exact k.work (by rfl) hs
  · split_ifs with h
    · exact k.work (by rfl) hs
    · exact k.settleLanes (k.work (work_answer ..) (k.launch s _ ha (not_not.1 h) hs))

theorem ownSyncPulse (tag l) : P [] (Sys2Proof.Machine.ownSyncPulse tag l s) := by
  unfold Sys2Proof.Machine.ownSyncPulse
  split
  · exact k.work (by rfl) hs
  · rename_i line _
    have h := k.edge s line ha hs
    generalize s.edgeMade line = t at h ⊢
    exact k.settleLanes (k.work (by rfl) h)

theorem filterSettled (l) : P [] (Sys2Proof.Machine.filterSettled l s) := by
  have h (x) : P [] (s.setLine l x) := k.work (work_setLine ..) hs
  have h' (x) : A (s.setLine l x) :=
    k.known (State.setLine_gtb ..) (State.setLine_lsq ..) (State.setLine_arm ..) ha
  unfold Sys2Proof.Machine.filterSettled
  simp only
  split_ifs
  · exact k.settleLanes (k.edge _ l (h' _) (h _))
  · exact h _
  · exact hs

/-! ## Every command -/

omit ha in
/-- A command as a whole step. -/
theorem taking {f : State → State} (hf : s.live = true → P [] (f s)) {t : State} (ht : s.taking f = .next t) :
    P [] t := by
  unfold State.taking at ht
  split_ifs at ht with hlive
  · cases ht
    exact k.work (by rfl) (hf hlive)
  · cases ht
    exact hs

omit ha in
/-- A command whose event leaves the work alone. -/
theorem beside {f : State → State} (hf : (f s).work = s.work) {t : State} (ht : s.taking f = .next t) : P [] t :=
  k.taking hs (fun _ => k.work hf hs) ht

/-- A request, by what its owner keeps. -/
theorem request {own : State → State} (ho : ∀ t, A t → P [] t → P [] (own t)) (h c chk) :
    P [] (s.request h c chk own) := by
  unfold State.request
  split_ifs
  · exact hs
  · split
    · exact k.work (by rfl) hs
    · exact ho _ (k.known (s := s) rfl rfl rfl ha) (k.work (by rfl) hs)

/-- A request row, by what its owner keeps. -/
theorem row {own : State → State} (ho : ∀ t, A t → P [] t → P [] (own t)) {h c chk} {t : State}
    (ht : s.taking (fun s => s.request h c chk own) = .next t) : P [] t :=
  k.taking hs (fun _ => k.request ha hs ho h c chk) ht

/-- A request row whose owner leaves the work alone. -/
theorem rowBeside {own : State → State} (ho : ∀ t : State, (own t).work = t.work) {h c chk} {t : State}
    (ht : s.taking (fun s => s.request h c chk own) = .next t) : P [] t :=
  k.row ha hs (fun u _ hu => k.work (ho u) hu) ht

theorem execRequest {i : Instr} (hi : (requestOf i).isSome = true) {t : State} (ht : exec i s = .next t) : P [] t := by
  cases i with
  | groupOpen h g => exact k.rowBeside ha hs (fun u => work_ownGroupOpen _ u _) ht
  | groupAdd h g r => exact k.rowBeside ha hs (fun u => work_ownGroupAdd _ u _ _) ht
  | groupClose h g => exact k.rowBeside ha hs (fun u => work_ownGroupClose _ u _) ht
  | groupDrop h g => exact k.rowBeside ha hs (fun u => work_ownGroupDrop _ u _) ht
  | groupEdit h g i v => exact k.rowBeside ha hs (fun u => work_ownGroupEdit _ u _ _ _) ht
  | groupQuery h g => exact k.rowBeside ha hs (fun u => work_ownGroupQuery _ u _) ht
  | groupRead h g f => exact k.rowBeside ha hs (fun u => work_ownGroupRead _ u _ _) ht
  | groupArm h g l x m => exact k.rowBeside ha hs (fun u => work_ownGroupArm _ u _ _ _ _) ht
  | groupDisarm h g => exact k.rowBeside ha hs (fun u => work_ownGroupDisarm _ u _) ht
  | groupApply h g => exact k.row ha hs (fun _ hu hp => k.ownGroupApply hu hp _ _) ht
  | groupAbort h g => exact k.row ha hs (fun _ _ hp => k.ownGroupAbort hp _ _) ht
  | targetSet h x r => exact k.rowBeside ha hs (fun u => work_ownTargetSet _ u _ _) ht
  | targetQuery h x => exact k.rowBeside ha hs (fun u => work_ownTargetQuery _ u _) ht
  | targetClear h x => exact k.rowBeside ha hs (fun u => work_ownTargetClear _ u _) ht
  | targetRead h x r => exact k.row ha hs (fun _ _ hp => k.ownTargetRead hp _ _ _) ht
  | laneSet h n r => exact k.rowBeside ha hs (fun u => work_ownLaneSet _ u _ _) ht
  | laneQuery h n => exact k.rowBeside ha hs (fun u => work_ownLaneQuery _ u _) ht
  | syncSet h l e w => exact k.rowBeside ha hs (fun u => work_ownSyncSet _ u _ _ _) ht
  | syncPulse h l => exact k.row ha hs (fun _ hu hp => k.ownSyncPulse hu hp _ _) ht
  | syncQuery h l => exact k.rowBeside ha hs (fun u => work_ownSyncQuery _ u _) ht
  | loopSet h n r => exact k.rowBeside ha hs (fun u => work_ownLoopSet _ u _ _) ht
  | loopStart h n => exact k.row ha hs (fun _ _ hp => k.ownLoopStart hp _ _) ht
  | loopStop h n => exact k.row ha hs (fun _ _ hp => k.ownLoopStop hp _ _) ht
  | loopQuery h n => exact k.rowBeside ha hs (fun u => work_ownLoopQuery _ u _) ht
  | slotSave h g x l => exact k.rowBeside ha hs (fun u => work_ownSlotSave _ u _ _ _) ht
  | slotLoad h x g => exact k.rowBeside ha hs (fun u => work_ownSlotLoad _ u _ _) ht
  | slotErase h x => exact k.rowBeside ha hs (fun u => work_ownSlotErase _ u _) ht
  | slotProtect h x => exact k.rowBeside ha hs (fun u => work_ownSlotProtect _ u _) ht
  | slotUnprotect h x => exact k.rowBeside ha hs (fun u => work_ownSlotUnprotect _ u _) ht
  | slotLock h x => exact k.rowBeside ha hs (fun u => work_ownSlotLock _ u _) ht
  | slotFreeze h => exact k.rowBeside (own := ownSlotFreeze h.tag) ha hs (fun _ => by rfl) ht
  | slotList h => exact k.rowBeside (own := ownSlotList h.tag) ha hs (fun _ => by rfl) ht
  | setupSave h => exact k.rowBeside ha hs (fun u => work_accept u _ _) ht
  | setupStart h d => exact k.rowBeside ha hs (fun u => work_ownSetupStart _ u _) ht
  | setupQuery h => exact k.rowBeside (own := ownSetupQuery h.tag) ha hs (fun _ => by rfl) ht
  | partIdent h => exact k.rowBeside (own := ownPartIdent h.tag) ha hs (fun _ => by rfl) ht
  | partStatus h => exact k.rowBeside (own := ownPartStatus h.tag) ha hs (fun _ => by rfl) ht
  | partResetFull h => exact k.rowBeside (own := ownPartResetFull h.tag) ha hs (fun _ => by rfl) ht
  | partResetSequencer h => exact k.row ha hs (fun _ _ hp => k.ownPartResetSequencer hp h.tag) ht
  | partResetLanes h => exact k.row ha hs (fun _ _ hp => k.ownPartResetLanes hp h.tag) ht
  | partResetLoops h => exact k.row ha hs (fun _ _ hp => k.ownPartResetLoops hp h.tag) ht
  | _ => cases hi

theorem frameTaken (hlive : s.live = true) (h c b) : P [] (Sys2Proof.Machine.frameTaken h c b s) := by
  rcases frameTaken_asRow hlive h c b with ⟨i, hi, ht⟩ | ⟨h', c', chk, own, hown, ht⟩ | ht
  · exact k.work (by rfl) (k.execRequest ha hs hi ht)
  · rw [ht]
    exact k.request ha hs (fun u _ hu => k.work (hown u) hu) h' c' chk
  · rw [ht]
    exact hs

theorem characterArrival (hlive : s.live = true) (c) : P [] (Sys2Proof.Machine.characterArrival c s) := by
  unfold Sys2Proof.Machine.characterArrival assemble
  extract_lets _ t
  have ht : P [] t := k.work (by rfl) hs
  have hat : A t := k.known (s := s) rfl rfl rfl ha
  have hlt : t.live = true := hlive
  clear_value t
  split
  · exact ht
  · split_ifs
    · exact k.work (by rfl) ht
    · exact ht
  · split_ifs
    · exact k.work (by rfl) ht
    · exact k.work (by rfl) ht
    · exact k.work (by rfl) ht
    · exact k.frameTaken (s := t.setRx .hunting) (k.known (s := t) rfl rfl rfl hat) (k.work (by rfl) ht) hlt _ _ _
  · exact ht

/-- Every command keeps it. -/
theorem exec {i : Instr} {t : State} (ht : Sys2Proof.Machine.exec i s = .next t) : P [] t := by
  cases i with
  | uartFramingError => exact k.beside (f := framingError) hs rfl ht
  | gapTimerExpiry => exact k.beside hs (work_gapExpired s) ht
  | transmitEnd x => exact k.taking hs (fun _ => k.transmitEnd hs x) ht
  | powerOn x => cases ht; exact k.powerOn x
  | powerFail => cases ht; exact k.hold true
  | resetnAssert => cases ht; exact k.hold s.suc.fresh
  | resetnRelease x => cases ht; exact k.resetnRelease hs x
  | directoryRebuild => exact k.beside hs (work_directoryRebuild s) ht
  | setupAreaRead => exact k.taking hs (fun _ => k.setupAreaRead hs) ht
  | syncLevelChange l x =>
    have h : P [] (s.setPinLevel l x) := by cases l <;> exact k.work (by rfl) hs
    exact k.beside h (work_levelChanged ..) ht
  | syncFilterSettled l => exact k.taking hs (fun _ => k.filterSettled ha hs l) ht
  | windowExpiry l => exact k.beside (f := fun s => s.closeWindow l) hs (work_closeWindow s l) ht
  | transactionEnd l e => exact k.taking hs (fun _ => k.transactionEnd l e hs) ht
  | clockHoldTimeout l => exact k.taking hs (fun _ => k.clockHoldTimeout l hs) ht
  | pollGapExpiry l => exact k.taking hs (fun _ => k.pollGapExpiry l hs) ht
  | waitExpiry l => exact k.taking hs (fun _ => k.waitExpiry l hs) ht
  | eraseComplete l => exact k.beside hs (work_eraseComplete l s) ht
  | pageProgramComplete l => exact k.beside hs (work_pageProgramComplete l s) ht
  | imageReadComplete => exact k.beside hs (work_imageReadComplete s) ht
  | fuseProgramComplete b => exact k.beside hs (work_fuseProgramComplete b s) ht
  | suspendEffect => exact k.beside hs (work_suspendEffect s) ht
  | resumeGuardExpiry => exact k.beside hs (work_resumeGuardExpiry s) ht
  | characterArrival c => exact k.taking hs (fun hlive => k.characterArrival ha hs hlive c) ht
  | _ => exact k.execRequest ha hs rfl ht

/-- Every step keeps it. -/
theorem step {t : State} (ht : Sys2Proof.Machine.step s = .next t) : P [] t := by
  unfold Sys2Proof.Machine.step at ht
  split at ht
  · cases ht
    exact k.work (work_idled s) hs
  · rename_i c q _
    exact k.exec (s := s.withPending q) (k.known (s := s) rfl rfl rfl ha) (k.work (by rfl) hs) ht

end

end JobKept

end Sys2Proof.Machine
end

section
/-! SUPPORT. The jobs of the loops: each job of a cycle is counted from its appending to its end (R104, R111, R112, R116). -/

namespace Sys2Proof.Machine

/-! ## Jobs appended and withdrawn -/

/-- Jobs join the queues of lanes, one after another (R39). -/
def State.putJobs (s : State) (jobs : List (Fin 4 × Job)) : State := jobs.foldl (fun s x => s.appendJob x.1 x.2) s

theorem putJobs_eq (s : State) (jobs : List (Fin 4 × Job)) : ∃ x, s.putJobs jobs = { s with lanes := x } := by
  refine foldl_keeps (P := fun t => ∃ x, t = { s with lanes := x }) (fun t j ht => ?_) jobs s ⟨s.lanes, rfl⟩
  obtain ⟨x, rfl⟩ := ht
  exact ⟨_, rfl⟩

theorem loop_putJobs (s : State) (jobs : List (Fin 4 × Job)) (n : Fin 4) : (s.putJobs jobs).loop n = s.loop n := by
  obtain ⟨x, h⟩ := putJobs_eq s jobs
  rw [h]
  rfl

theorem account_putJobs (s : State) (jobs : List (Fin 4 × Job)) (g : Fin 8) :
    (s.putJobs jobs).account g = s.account g := by
  obtain ⟨x, h⟩ := putJobs_eq s jobs
  rw [h]
  rfl

theorem jobCount_appendJob (s : State) (l : Fin 4) (j : Job) (hand : List Job) (p : Job → Bool) :
    (s.appendJob l j).jobCount hand p = s.jobCount (j :: hand) p := by
  refine jobCount_setLane ?_ p
  simp only [Lane.jobs, List.append_assoc, List.singleton_append, List.Perm.refl]

theorem jobCount_hand (s : State) (hand : List Job) (p : Job → Bool) :
    s.jobCount hand p = s.jobCount [] p + hand.countP p := rfl

theorem jobCount_putJobs (s : State) (jobs : List (Fin 4 × Job)) (p : Job → Bool) :
    (s.putJobs jobs).jobCount [] p = s.jobCount [] p + (jobs.map (·.2)).countP p := by
  unfold State.putJobs
  induction jobs generalizing s with
  | nil => rfl
  | cons x jobs ih =>
    rw [List.foldl_cons, ih, jobCount_appendJob, jobCount_hand, List.map_cons, List.countP_cons, List.countP_cons,
      List.countP_nil]
    omega

/-- Queued jobs of a kind leave the lanes, and those alone. -/
theorem jobCount_dropQueued (s : State) (p q : Job → Bool) :
    (s.dropQueued q).jobCount [] p + s.queuedCount (fun j => p j && q j) = s.jobCount [] p := by
  have lane (l : Fin 4) : ((s.dropQueued q).lane l).jobs.countP p + (s.lane l).queue.countP (fun j => p j && q j) =
      (s.lane l).jobs.countP p := by
    simp only [lane_dropQueued, Lane.jobs, List.countP_append, List.countP_filter]
    have split : (s.lane l).queue.countP p =
        (s.lane l).queue.countP (fun j => p j && !q j) + (s.lane l).queue.countP (fun j => p j && q j) := by
      induction (s.lane l).queue with
      | nil => rfl
      | cons j queue ih =>
        simp only [List.countP_cons, ih]
        cases p j <;> cases q j <;> simp <;> omega
    omega
  simp only [State.jobCount, State.queuedCount, sum_upTo, List.countP_nil, Nat.add_zero, ← Finset.sum_add_distrib, lane]

theorem jobCount_dropQueued_self (s : State) (p : Job → Bool) :
    (s.dropQueued p).jobCount [] p + s.queuedCount p = s.jobCount [] p := by
  simpa using jobCount_dropQueued s p p

theorem jobCount_dropQueued_other (s : State) {p q : Job → Bool} (h : ∀ j, p j = true → q j = false) :
    (s.dropQueued q).jobCount [] p = s.jobCount [] p := by
  have none : (fun j => p j && q j) = fun _ => false := by
    funext j
    cases hp : p j with
    | false => rfl
    | true => rw [h j hp]; rfl
  have split := jobCount_dropQueued s p q
  rw [none] at split
  simpa [State.queuedCount, sum_upTo] using split

theorem jobCount_setLoop (s : State) (n : Fin 4) (x : LoopEntry) (hand : List Job) (p : Job → Bool) :
    (s.setLoop n x).jobCount hand p = s.jobCount hand p := rfl

theorem loop_dropQueued (s : State) (p : Job → Bool) (n : Fin 4) : (s.dropQueued p).loop n = s.loop n := by
  unfold State.dropQueued
  refine foldl_keeps (P := fun t => t.loop n = s.loop n) (fun t l ht => ?_) _ s rfl
  exact ht

theorem account_dropQueued (s : State) (p : Job → Bool) (g : Fin 8) : (s.dropQueued p).account g = s.account g :=
  congrArg (fun x : Gtb × Table Account 8 × Sau => x.2.1[g]) (ledger_dropQueued s p)

/-! ## What can happen to one loop's jobs -/

/-- In `t` the loop `n` has appended jobs of its own, or withdrawn those it had queued; other loops, the accounts and other
jobs are as in `s`. -/
inductive State.LoopTurn (s : State) (n : Fin 4) (t : State) : Prop where
  | put (x : LoopEntry) (jobs : List (Fin 4 × Job)) (own : ∀ j ∈ jobs, j.2.ofLoop n = true)
      (work : t.work = ((s.setLoop n x).putJobs jobs).work)
  | withdrawn (x : LoopEntry) (work : t.work = ((s.dropQueued (Job.ofLoop n)).setLoop n x).work)

theorem loopTurn_setLoop (s : State) (n : Fin 4) (x : LoopEntry) : s.LoopTurn n (s.setLoop n x) :=
  .put x [] (by simp) rfl

theorem setLoop_setLoop (s : State) (n : Fin 4) (x y : LoopEntry) : (s.setLoop n x).setLoop n y = s.setLoop n y := by
  simp [State.setLoop]

theorem dropQueued_setLoop (s : State) (n : Fin 4) (x : LoopEntry) (p : Job → Bool) :
    (s.setLoop n x).dropQueued p = (s.dropQueued p).setLoop n x := by
  unfold State.dropQueued
  induction upTo 4 generalizing s with
  | nil => rfl
  | cons l lanes ih => exact ih (s.setLane l _)

theorem setLoop_loop (s : State) (n : Fin 4) : s.setLoop n (s.loop n) = s := by simp [State.setLoop, State.loop]

/-- A turn does not depend on the entry that the loop had. -/
theorem loopTurn_of_setLoop {s t : State} {n : Fin 4} {x : LoopEntry} (h : (s.setLoop n x).LoopTurn n t) :
    s.LoopTurn n t := by
  cases h with
  | put y jobs own work => exact .put y jobs own (by rw [work, setLoop_setLoop])
  | withdrawn y work => exact .withdrawn y (by rw [work, dropQueued_setLoop, setLoop_setLoop])

/-- The entry of a loop that leaves its run, with `k` jobs withdrawn. -/
def LoopEntry.left (x : LoopEntry) (st : LoopState) (k : Nat) : LoopEntry :=
  { x.cycleOver with state := st, jobsOut := x.jobsOut - k }

/-- A loop that leaves its run (R110, R120). -/
theorem leaveRun_eq (s : State) (n : Fin 4) (st : LoopState) :
    s.leaveRun n st =
      (s.dropQueued (Job.ofLoop n)).setLoop n ((s.loop n).left st (s.queuedCount (Job.ofLoop n))) := by
  simp only [State.leaveRun, State.withdrawLoop, State.loop_setLoop_self, setLoop_setLoop, loop_dropQueued]
  rfl

/-- A loop that is stopped (R110). -/
theorem stopLoop_eq (s : State) (n : Fin 4) :
    s.stopLoop n =
      (s.dropQueued (Job.ofLoop n)).setLoop n
        { (s.loop n).left .stopped (s.queuedCount (Job.ofLoop n)) with edgeCount := 0 } := by
  simp only [State.stopLoop, leaveRun_eq, State.loop_setLoop_self, setLoop_setLoop]

theorem work_notifyLoop (s : State) (n : Fin 4) (e : Option Int) (c : Option (LoopJobKind × Fin 16 × Half × Byte)) :
    (s.notifyLoop n e c).work = s.work := rfl

/-! ## The decision on a measure (R113 to R116) -/

/-- The entry of a loop that runs, after its start or a decision on a measure, when it had `out` other jobs: its cycle is over,
or it makes the writes of its seeds or of an adjustment. -/
def LoopEntry.Decided (n : Fin 4) (out : Nat) (x : LoopEntry) (jobs : List (Fin 4 × Job)) : Prop :=
  x.state.running = true ∧
    ((x.cycle = .none ∧ x.jobsOut = out ∧ jobs = []) ∨
      (x.cycle = .output ∧ x.jobsOut = jobs.length ∧ (jobs.length = 1 ∨ jobs.length = 2) ∧
        ∀ j ∈ jobs, j.2.writeOfLoop n = true))

/-- In `t` the loop `n` of `s`, which runs, has taken its decision. -/
def State.DecidedAt (s : State) (n : Fin 4) (t : State) : Prop :=
  ∃ x jobs, LoopEntry.Decided n (s.loop n).jobsOut x jobs ∧ t.work = ((s.setLoop n x).putJobs jobs).work

theorem ofLoop_of_write {n : Fin 4} {j : Job} (h : j.writeOfLoop n = true) : j.ofLoop n = true := by
  cases j with
  | loop m k t reg v => exact (Bool.and_eq_true_iff.1 h).1
  | record g i r => cases h
  | read tag t reg => cases h

theorem writeOfLoop_self {n : Fin 4} {k : LoopJobKind} (hk : k ≠ .measure) (t : Fin 16) (reg : Half) (v : Val) :
    (Job.loop n k t reg v).writeOfLoop n = true := by
  simp [Job.writeOfLoop, hk]

theorem loopTurn_of_decidedAt {s t : State} {n : Fin 4} (h : s.DecidedAt n t) : s.LoopTurn n t := by
  obtain ⟨x, jobs, ⟨-, hx⟩, work⟩ := h
  refine .put x jobs (fun j hj => ?_) work
  rcases hx with ⟨-, -, rfl⟩ | ⟨-, -, -, writes⟩
  · cases hj
  · exact ofLoop_of_write (writes j hj)

/-- The decision is the same whatever else the entry held. -/
theorem decidedAt_of_setLoop {s t : State} {n : Fin 4} {x : LoopEntry} (hx : x.jobsOut = (s.loop n).jobsOut)
    (h : (s.setLoop n x).DecidedAt n t) : s.DecidedAt n t := by
  obtain ⟨y, jobs, decided, work⟩ := h
  rw [State.loop_setLoop_self, hx] at decided
  exact ⟨y, jobs, decided, by rw [work, setLoop_setLoop]⟩

theorem decidedAt_rest {s : State} {n : Fin 4} {x : LoopEntry} (hr : x.state.running = true)
    (hj : x.jobsOut = (s.loop n).jobsOut) : s.DecidedAt n (s.setLoop n x.cycleOver) :=
  ⟨x.cycleOver, [], ⟨hr, .inl ⟨rfl, hj, rfl⟩⟩, rfl⟩

section
variable {s : State} {n : Fin 4} (hr : (s.loop n).state.running = true)
include hr

theorem decidedAt_appendAdjustment (v : Val) : s.DecidedAt n (s.appendAdjustment n v) := by
  simp only [State.appendAdjustment]
  split
  · refine ⟨{ s.loop n with cycle := .output, jobsOut := 1 }, [(_, .loop n .output _ _ v)],
      ⟨hr, .inr ⟨rfl, rfl, .inl rfl, fun j hj => ?_⟩⟩, rfl⟩
    rw [List.mem_singleton.1 hj]
    exact writeOfLoop_self (by simp) _ _ _
  · refine ⟨{ s.loop n with cycle := .output, jobsOut := 2 }, [(_, .loop n .output _ _ v), (_, .loop n .follower _ _ _)],
      ⟨hr, .inr ⟨rfl, rfl, .inr rfl, fun j hj => ?_⟩⟩, rfl⟩
    rcases List.mem_pair.1 hj with rfl | rfl
    · exact writeOfLoop_self (by simp) _ _ _
    · exact writeOfLoop_self (by simp) _ _ _

theorem decidedAt_adjust (e : Int) : s.DecidedAt n (s.adjust n e) := by
  simp only [State.adjust]
  split_ifs
  · exact decidedAt_rest hr rfl
  · exact decidedAt_rest (x := { s.loop n with state := .limited }) rfl rfl
  · exact decidedAt_appendAdjustment hr _

theorem decidedAt_decide (e : Int) : s.DecidedAt n (s.decide n e) := by
  have settled : s.DecidedAt n (s.loopRests n .settled e) :=
    decidedAt_rest (x := { s.loop n with state := .settled }) rfl rfl
  simp only [State.decide]
  split
  · split_ifs
    · exact settled
    · exact decidedAt_adjust hr e
  · split_ifs
    · exact settled
    · exact decidedAt_adjust hr e
  · split_ifs
    · exact decidedAt_rest hr rfl
    · exact decidedAt_of_setLoop (x := { s.loop n with state := .tracking }) rfl
        (decidedAt_adjust (by rw [State.loop_setLoop_self]; rfl) e)
  · rename_i h; rw [h] at hr; cases hr
  · rename_i h; rw [h] at hr; cases hr

theorem decidedAt_measured (m : Val) : s.DecidedAt n (s.measured n m) :=
  decidedAt_of_setLoop (x := { s.loop n with lastMeasure := some m }) rfl
    (decidedAt_decide (by rw [State.loop_setLoop_self]; exact hr) _)

end

theorem measured_rest {s : State} {n : Fin 4} (hr : (s.loop n).state.running = false) (m : Val) :
    s.measured n m = s.setLoop n { s.loop n with lastMeasure := some m } := by
  simp only [State.measured, State.decide, State.loop_setLoop_self]
  split
  · rename_i h; rw [h] at hr; cases hr
  · rename_i h; rw [h] at hr; cases hr
  · rename_i h; rw [h] at hr; cases hr
  · rfl
  · rfl

/-! ## Turns of a loop -/

theorem loopTurn_faultLoop (s : State) (n : Fin 4) (k : LoopJobKind) (t : Fin 16) (reg : Half) (b : Byte) :
    s.LoopTurn n (s.faultLoop n k t reg b) :=
  .withdrawn _ (by rw [State.faultLoop, work_notifyLoop, leaveRun_eq])

theorem loopTurn_measured (s : State) (n : Fin 4) (m : Val) : s.LoopTurn n (s.measured n m) := by
  cases hr : (s.loop n).state.running with
  | true => exact loopTurn_of_decidedAt (decidedAt_measured hr m)
  | false =>
    rw [measured_rest hr]
    exact loopTurn_setLoop s n _

theorem loopTurn_loopJobEnd (s : State) (n : Fin 4) (k : LoopJobKind) (t : Fin 16) (reg : Half) (e : LoopEnd) :
    s.LoopTurn n (s.loopJobEnd n k t reg e) := by
  simp only [State.loopJobEnd]
  split_ifs
  · exact loopTurn_setLoop s n _
  · refine loopTurn_of_setLoop (x := { s.loop n with jobsOut := (s.loop n).jobsOut - 1 }) ?_
    cases e with
    | failed r => exact loopTurn_faultLoop ..
    | skipped => exact loopTurn_faultLoop ..
    | dropped => exact loopTurn_setLoop _ n _
    | success v =>
      simp only [State.cycleJobEnd]
      split_ifs
      · exact loopTurn_measured _ n v
      · exact loopTurn_setLoop _ n _

theorem loopTurn_stopLoop (s : State) (n : Fin 4) : s.LoopTurn n (s.stopLoop n) := .withdrawn _ (by rw [stopLoop_eq])

/-- A loop starts with the writes of its seeds (R108). -/
theorem decidedAt_startLoop (s : State) (n : Fin 4) : s.DecidedAt n (s.startLoop n) := by
  have jobsOut : (s.loop n).started.jobsOut = match (s.loop n).cfg.follower with | none => 1 | some _ => 2 := rfl
  have follower : (s.loop n).started.cfg.follower = (s.loop n).cfg.follower := rfl
  simp only [State.startLoop]
  split
  · rename_i h
    rw [follower] at h
    rw [h] at jobsOut
    refine ⟨(s.loop n).started, [(_, .loop n .outputSeed _ _ _)], ⟨rfl, .inr ⟨rfl, jobsOut, .inl rfl, ?_⟩⟩, rfl⟩
    exact fun j hj => List.mem_singleton.1 hj ▸ writeOfLoop_self (by simp) _ _ _
  · rename_i f h
    rw [follower] at h
    rw [h] at jobsOut
    refine ⟨(s.loop n).started, [(_, .loop n .outputSeed _ _ _), (_, .loop n .followerSeed _ _ _)],
      ⟨rfl, .inr ⟨rfl, jobsOut, .inr rfl, fun j hj => ?_⟩⟩, rfl⟩
    rcases List.mem_pair.1 hj with rfl | rfl
    · exact writeOfLoop_self (by simp) _ _ _
    · exact writeOfLoop_self (by simp) _ _ _

/-- The ways a loop takes an edge: none, or an edge counted or skipped, or the measure of a new cycle (R112). -/
theorem loopEdge_cases (s : State) (line : Line) (n : Fin 4) :
    (s.loopEdge line n).work = s.work ∨
    ((s.loop n).state.running = true ∧ (s.loop n).cycle = .none ∧ ∃ c l t reg,
      s.loopEdge line n =
        (s.setLoop n { s.loop n with edgeCount := c, cycle := .measure, jobsOut := 1 }).putJobs
          [(l, .loop n .measure t reg 0#32)]) := by
  simp only [State.loopEdge]
  split_ifs with hrun hcount hcycle
  · exact .inl (work_setLoop rfl rfl rfl)
  · exact .inr ⟨hrun.2, hcycle, _, _, _, _, rfl⟩
  · exact .inl (work_setLoop rfl rfl rfl)
  · exact .inl rfl

theorem loopTurn_loopEdge (s : State) (line : Line) (n : Fin 4) : s.LoopTurn n (s.loopEdge line n) := by
  rcases loopEdge_cases s line n with h | ⟨-, -, c, l, t, reg, h⟩
  · exact .put (s.loop n) [] (by simp) (by rw [h, setLoop_loop]; rfl)
  · refine .put _ [(l, .loop n .measure t reg 0#32)] (fun j hj => ?_) (congrArg State.work h)
    rw [List.mem_singleton.1 hj]
    simp [Job.ofLoop]

end Sys2Proof.Machine
end

section
/-! SUPPORT. The jobs law of the loops, kept by every step (R104, R111, R112, R116). -/

namespace Sys2Proof.Machine

/-! ## The law of one loop -/

/-- An entry that is true of its `out` jobs, `writes` of them writes (R104, R111, R112, R116). -/
structure LoopEntry.JobsTrue (x : LoopEntry) (out writes : Nat) : Prop where
  count : x.jobsOut = out
  most : x.jobsOut ≤ 2
  rest : x.state.running = false → x.cycle = .none
  run : x.state.running = true → (x.cycle = .none ↔ x.jobsOut = 0)
  measure : x.cycle = .measure → x.jobsOut = 1 ∧ writes = 0
  output : x.cycle = .output → writes = x.jobsOut

/-- The law of a loop, with jobs in hand. -/
def State.loopTrue (s : State) (hand : List Job) (n : Fin 4) : Prop :=
  (s.loop n).JobsTrue (s.jobCount hand (Job.ofLoop n)) (s.jobCount hand (Job.writeOfLoop n))

/-- The jobs law, with jobs in hand. -/
def State.loopsTrue (hand : List Job) (s : State) : Prop := ∀ n, s.loopTrue hand n

theorem jobsLaw_iff (s : State) : s.jobsLaw ↔ s.loopsTrue [] := by
  refine forall_congr' fun n => ?_
  rw [State.loopTrue, jobCount_nil, jobCount_nil]
  exact ⟨fun ⟨count, most, rest, run, measure, output⟩ => ⟨count, most, rest, run, measure, output⟩,
    fun ⟨count, most, rest, run, measure, output⟩ => ⟨count, most, rest, run, measure, output⟩⟩

section
variable {x : LoopEntry} {out writes : Nat}

/-- The law of an entry is about its running, its cycle and `jobs out`. -/
theorem LoopEntry.JobsTrue.congr {y : LoopEntry} (h : x.JobsTrue out writes) (hr : y.state.running = x.state.running)
    (hc : y.cycle = x.cycle) (hj : y.jobsOut = x.jobsOut) : y.JobsTrue out writes where
  count := by rw [hj]; exact h.count
  most := by rw [hj]; exact h.most
  rest := by rw [hr, hc]; exact h.rest
  run := by rw [hr, hc, hj]; exact h.run
  measure := by rw [hc, hj]; exact h.measure
  output := by rw [hc, hj]; exact h.output

/-- A loop whose cycle is over, with no job when it runs. -/
theorem LoopEntry.JobsTrue.of_over (hc : x.cycle = .none) (hj : x.jobsOut = out) (most : out ≤ 2)
    (hr : x.state.running = true → out = 0) : x.JobsTrue out writes where
  count := hj
  most := hj ▸ most
  rest _ := hc
  run h := by rw [hj, hc, hr h]; simp
  measure h := by rw [hc] at h; cases h
  output h := by rw [hc] at h; cases h

/-- A loop that runs, with writes out. -/
theorem LoopEntry.JobsTrue.of_writes (hr : x.state.running = true) (hc : x.cycle = .output) (hj : x.jobsOut = out)
    (most : out ≤ 2) (some : out ≠ 0) : x.JobsTrue out out where
  count := hj
  most := hj ▸ most
  rest h := by rw [hr] at h; cases h
  run _ := by rw [hc, hj]; simp [some]
  measure h := by rw [hc] at h; cases h
  output _ := hj.symm

/-- A loop that runs, with its measure out. -/
theorem LoopEntry.JobsTrue.of_measure (hr : x.state.running = true) (hc : x.cycle = .measure) (hj : x.jobsOut = 1) :
    x.JobsTrue 1 0 where
  count := hj
  most := by omega
  rest h := by rw [hr] at h; cases h
  run _ := by rw [hc, hj]; simp
  measure _ := ⟨hj, rfl⟩
  output h := by rw [hc] at h; cases h

/-- A loop that runs, after a write of its `out + 1` has ended: its cycle goes on with those left, or is over (R118). -/
theorem LoopEntry.JobsTrue.writeEnded (hr : x.state.running = true) (hj : x.jobsOut = out) (most : out ≤ 2)
    (hc : out ≠ 0 → x.cycle = .output) : x.writeEnded.JobsTrue out out := by
  unfold LoopEntry.writeEnded
  split_ifs with h
  · exact .of_over rfl hj most fun _ => hj.symm.trans h
  · exact .of_writes hr (hc (hj ▸ h)) hj most (hj ▸ h)

end

/-! ## Other loops -/

theorem ofLoop_other {n m : Fin 4} (hm : m ≠ n) {j : Job} (h : j.ofLoop m = true) : j.ofLoop n = false := by
  cases j with
  | loop n' k t reg v =>
    rw [Job.ofLoop, beq_iff_eq] at h
    simp [Job.ofLoop, h, hm]
  | record g i r => rfl
  | read tag t reg => rfl

/-- A turn of loop `n` leaves the jobs of a kind that is not its own. -/
theorem jobCount_turn {s t : State} {n : Fin 4} (h : s.LoopTurn n t) {p : Job → Bool}
    (hp : ∀ j, p j = true → j.ofLoop n = false) : t.jobCount [] p = s.jobCount [] p := by
  cases h with
  | put x jobs own work =>
    have none : (jobs.map (·.2)).countP p = 0 := by
      refine List.countP_eq_zero.2 fun j hj hpj => ?_
      obtain ⟨y, hy, rfl⟩ := List.mem_map.1 hj
      have other := hp _ hpj
      rw [own y hy] at other
      cases other
    rw [jobCount_of_work work, jobCount_putJobs, none]
    rfl
  | withdrawn x work =>
    rw [jobCount_of_work work, jobCount_setLoop]
    exact jobCount_dropQueued_other s hp

theorem work_loop_other {s t : State} {n m : Fin 4} (h : s.LoopTurn n t) (hm : m ≠ n) :
    (t.loop m).state.running = (s.loop m).state.running ∧ (t.loop m).cycle = (s.loop m).cycle ∧
      (t.loop m).jobsOut = (s.loop m).jobsOut := by
  have same (u : State) (hu : u.loop m = s.loop m) (work : t.work = u.work) :
      (t.loop m).state.running = (s.loop m).state.running ∧ (t.loop m).cycle = (s.loop m).cycle ∧
        (t.loop m).jobsOut = (s.loop m).jobsOut := by
    have loops := congrFun (congrArg (fun x => x.2.2) work) m
    rw [← hu]
    exact ⟨congrArg Prod.fst loops, congrArg (fun x => x.2.1) loops, congrArg (fun x => x.2.2) loops⟩
  cases h with
  | put x jobs own work =>
    exact same _ (by rw [loop_putJobs, State.loop_setLoop, if_neg (Ne.symm hm)]) work
  | withdrawn x work =>
    exact same _ (by rw [State.loop_setLoop, if_neg (Ne.symm hm), loop_dropQueued]) work

/-- A turn of loop `n` keeps the law of every other loop. -/
theorem loopTrue_turn {s t : State} {n m : Fin 4} (h : s.LoopTurn n t) (hm : m ≠ n) (hs : s.loopTrue [] m) :
    t.loopTrue [] m := by
  obtain ⟨running, cycle, jobsOut⟩ := work_loop_other h hm
  rw [State.loopTrue, jobCount_turn h fun j => ofLoop_other hm,
    jobCount_turn h fun j hj => ofLoop_other hm (ofLoop_of_write hj)]
  exact LoopEntry.JobsTrue.congr hs running cycle jobsOut

/-! ## The loop whose turn it is -/

theorem loopTrue_of_work {s t : State} (h : t.work = s.work) {hand : List Job} {n : Fin 4} (hs : s.loopTrue hand n) :
    t.loopTrue hand n := by
  have loops := congrFun (congrArg (fun x => x.2.2) h) n
  rw [State.loopTrue, jobCount_of_work h, jobCount_of_work h]
  exact LoopEntry.JobsTrue.congr hs (congrArg Prod.fst loops) (congrArg (fun x => x.2.1) loops) (congrArg (fun x => x.2.2) loops)

theorem write_le (s : State) (n : Fin 4) : s.jobCount [] (Job.writeOfLoop n) ≤ s.jobCount [] (Job.ofLoop n) :=
  Nat.add_le_add (Finset.sum_le_sum fun _ _ => List.countP_mono_left fun _ _ => ofLoop_of_write) (Nat.le_refl _)

/-- A loop that has left its run keeps count of the jobs in flight (R110, R111). -/
theorem loopTrue_left {s : State} {n : Fin 4} {st : LoopState} (hst : st.running = false)
    (count : (s.loop n).jobsOut = s.jobCount [] (Job.ofLoop n)) (most : (s.loop n).jobsOut ≤ 2) {x : LoopEntry}
    (hx : x.state = st) (hc : x.cycle = .none)
    (hj : x.jobsOut = (s.loop n).jobsOut - s.queuedCount (Job.ofLoop n)) :
    ((s.dropQueued (Job.ofLoop n)).setLoop n x).loopTrue [] n := by
  have dropped := jobCount_dropQueued_self s (Job.ofLoop n)
  rw [State.loopTrue, State.loop_setLoop_self, jobCount_setLoop]
  refine .of_over hc (by omega) (by omega) fun h => ?_
  · rw [hx, hst] at h
    cases h

/-- A loop that decides, or starts, while it has no job out keeps its law. -/
theorem loopTrue_decidedAt {s t : State} {n : Fin 4} (h : s.DecidedAt n t) (hj : (s.loop n).jobsOut = 0)
    (none : s.jobCount [] (Job.ofLoop n) = 0) : t.loopTrue [] n := by
  have nowrite : s.jobCount [] (Job.writeOfLoop n) = 0 := Nat.eq_zero_of_le_zero (none ▸ write_le s n)
  obtain ⟨x, jobs, ⟨running, hx⟩, work⟩ := h
  refine loopTrue_of_work work ?_
  rw [State.loopTrue, loop_putJobs, State.loop_setLoop_self, jobCount_putJobs, jobCount_putJobs, jobCount_setLoop,
    jobCount_setLoop, none, nowrite, Nat.zero_add, Nat.zero_add]
  rcases hx with ⟨cycle, jobsOut, rfl⟩ | ⟨cycle, jobsOut, length, writes⟩
  · exact .of_over cycle (jobsOut.trans hj) (Nat.zero_le 2) fun _ => rfl
  · have all {p : Job → Bool} (hp : ∀ j, j.writeOfLoop n = true → p j = true) :
        (jobs.map (·.2)).countP p = jobs.length := by
      rw [← List.length_map (f := (·.2)) (as := jobs), List.countP_eq_length]
      intro j hj
      obtain ⟨y, hy, rfl⟩ := List.mem_map.1 hj
      exact hp _ (writes y hy)
    rw [all fun _ => ofLoop_of_write, all fun _ h => h]
    exact .of_writes running cycle jobsOut (by omega) (by omega)

/-! ## A job's end -/

/-- What the law says of a loop with one of its jobs in hand, `c` others and `w` other writes being on the lanes. -/
theorem loopTrue_hand {s : State} {n : Fin 4} {k : LoopJobKind} {t : Fin 16} {reg : Half} {v : Val}
    (hs : s.loopTrue [.loop n k t reg v] n) :
    (s.loop n).JobsTrue (s.jobCount [] (Job.ofLoop n) + 1)
      (s.jobCount [] (Job.writeOfLoop n) + if k = .measure then 0 else 1) := by
  rw [State.loopTrue, jobCount_hand, jobCount_hand s _ (Job.writeOfLoop n)] at hs
  simpa [Job.ofLoop, Job.writeOfLoop, List.countP_cons] using hs

/-- What a write that lands changes of a loop that runs is neither its cycle nor its jobs (R109, R117, R118). -/
theorem landed_run {x : LoopEntry} (hr : x.state.running = true) (k : LoopJobKind) (v : Val) :
    (x.landed k v).state.running = true ∧ (x.landed k v).cycle = x.cycle ∧ (x.landed k v).jobsOut = x.jobsOut := by
  cases k with
  | output =>
    refine ⟨?_, rfl, rfl⟩
    simp only [LoopEntry.landed]
    split_ifs
    · rfl
    · exact hr
  | measure => exact ⟨hr, rfl, rfl⟩
  | follower => exact ⟨hr, rfl, rfl⟩
  | outputSeed => exact ⟨hr, rfl, rfl⟩
  | followerSeed => exact ⟨hr, rfl, rfl⟩

/-- With a cycle in flight the loop runs; a measure in hand is its only job, and otherwise its other jobs are writes. -/
theorem hand_of_cycle {x : LoopEntry} {c w : Nat} {k : LoopJobKind} (hx : x.JobsTrue (c + 1) (w + if k = .measure then 0 else 1))
    (le : w ≤ c) (hc : x.cycle ≠ .none) :
    x.state.running = true ∧ w = c ∧ (k = .measure → c = 0) ∧ (c ≠ 0 → x.cycle = .output) := by
  have count := hx.count
  have running : x.state.running = true := by
    by_contra h
    exact hc (hx.rest (by simpa using h))
  cases hcycle : x.cycle with
  | none => exact absurd hcycle hc
  | measure =>
    obtain ⟨one, none⟩ := hx.measure hcycle
    exact ⟨running, by omega, fun _ => by omega, fun h => absurd (show c = 0 by omega) h⟩
  | output =>
    have writes := hx.output hcycle
    split_ifs at writes with hk
    · omega
    · exact ⟨running, by omega, fun h => absurd h hk, fun _ => rfl⟩

/-- A loop keeps its law when a job of it that is in hand ends (R109, R111, R113, R117, R118, R120). -/
theorem loopTrue_loopJobEnd {s : State} {n : Fin 4} {k : LoopJobKind} {t : Fin 16} {reg : Half} {v : Val}
    (hs : s.loopTrue [.loop n k t reg v] n) (e : LoopEnd) : (s.loopJobEnd n k t reg e).loopTrue [] n := by
  have hand := loopTrue_hand hs
  have le := write_le s n
  have count := hand.count
  have most := hand.most
  simp only [State.loopJobEnd]
  generalize hu : s.setLoop n { s.loop n with jobsOut := (s.loop n).jobsOut - 1 } = u
  have entry : u.loop n = { s.loop n with jobsOut := (s.loop n).jobsOut - 1 } := by rw [← hu, State.loop_setLoop_self]
  have out : u.jobCount [] (Job.ofLoop n) = s.jobCount [] (Job.ofLoop n) := by rw [← hu, jobCount_setLoop]
  have writes : u.jobCount [] (Job.writeOfLoop n) = s.jobCount [] (Job.writeOfLoop n) := by rw [← hu, jobCount_setLoop]
  have jobsOut : (u.loop n).jobsOut = u.jobCount [] (Job.ofLoop n) := by rw [entry, out]; simp only; omega
  split_ifs with hc
  · rw [entry] at hc
    refine .of_over (by rw [entry]; exact hc) jobsOut (by omega) fun h => ?_
    rw [entry] at h
    exact absurd ((hand.run h).1 hc) (by omega)
  · rw [entry] at hc
    obtain ⟨running, same, only, cycle⟩ := hand_of_cycle hand le hc
    have running' : (u.loop n).state.running = true := by rw [entry]; exact running
    have ended (x : LoopEntry) (hr : x.state.running = true) (hx : x.cycle = (u.loop n).cycle)
        (hj : x.jobsOut = (u.loop n).jobsOut) : (u.setLoop n x.writeEnded).loopTrue [] n := by
      rw [State.loopTrue, State.loop_setLoop_self, jobCount_setLoop, jobCount_setLoop, writes, same, ← out]
      refine .writeEnded hr (hj.trans jobsOut) (by omega) fun h => ?_
      rw [hx, entry]
      exact cycle (out ▸ h)
    have faulted (b : Byte) : (u.faultLoop n k t reg b).loopTrue [] n := by
      rw [State.faultLoop, leaveRun_eq]
      exact loopTrue_of_work (work_notifyLoop ..)
        (loopTrue_left (st := .faulted) rfl jobsOut (by omega) rfl rfl rfl)
    cases e with
    | failed r => exact faulted r.byte
    | skipped => exact faulted skippedByte
    | dropped => exact ended (u.loop n) running' rfl rfl
    | success x =>
      simp only [State.cycleJobEnd]
      split_ifs with hk
      · have none : u.jobCount [] (Job.ofLoop n) = 0 := out.trans (only hk)
        exact loopTrue_decidedAt (decidedAt_measured running' x) (jobsOut.trans none) none
      · obtain ⟨hr, hcycle, hj⟩ := landed_run running' k x
        exact ended _ hr hcycle hj

/-! ## Every step -/

/-- A turn of loop `n` keeps the jobs law when it keeps that of its own loop. -/
theorem loopsTrue_turn {s t : State} {n : Fin 4} (h : s.LoopTurn n t) (hn : t.loopTrue [] n)
    (others : ∀ m, m ≠ n → s.loopTrue [] m) : t.loopsTrue [] := fun m => by
  by_cases hm : m = n
  · exact hm ▸ hn
  · exact loopTrue_turn h hm (others m hm)

theorem loopsTrue_of_work {s t : State} (h : t.work = s.work) {hand : List Job} (hs : s.loopsTrue hand) :
    t.loopsTrue hand := fun n => loopTrue_of_work h (hs n)

/-- Jobs that belong to no loop do not count. -/
theorem loopTrue_hand_other {s : State} {n : Fin 4} {j : Job} (hj : j.ofLoop n = false) :
    s.loopTrue [j] n ↔ s.loopTrue [] n := by
  have hw : j.writeOfLoop n = false := by
    by_contra h
    rw [ofLoop_of_write (by simpa using h)] at hj
    cases hj
  rw [State.loopTrue, jobCount_hand, jobCount_hand s _ (Job.writeOfLoop n)]
  simp only [List.countP_singleton, hj, hw]
  exact Iff.rfl

end Sys2Proof.Machine
end

section
/-! SUPPORT. What an edge and an abort do to the work under way, and the jobs law through every step (R61, R92, R111). -/

namespace Sys2Proof.Machine

/-! ## The jobs -/

theorem jobCount_of_lanes {s t : State} (h : t.lanes = s.lanes) (hand : List Job) (p : Job → Bool) :
    t.jobCount hand p = s.jobCount hand p := by
  simp only [State.jobCount, State.lane, h]

theorem jobCount_zero {s : State} (h : ∀ l, (s.lane l).jobs = []) (p : Job → Bool) : s.jobCount [] p = 0 := by
  simp [State.jobCount, h]

theorem jobs_blocksReset (s : State) (c : Suc) (r : Baud) (l : Fin 4) : ((s.blocksReset c r).lane l).jobs = [] := by
  simp [State.lane, State.blocksReset, Lane.reset, Lane.jobs]

theorem tlu_recordEnd (s : State) (g : Fin 8) (i : Nat) (e : RecordEnd) : (s.recordEnd g i e).tlu = s.tlu := by
  simp only [State.recordEnd]
  split_ifs <;> rfl

/-! ## An edge, beside its launches and the loops (R61) -/

theorem work_edgeBegun (s : State) (line : Line) : (s.edgeBegun line).work = s.work :=
  (work_closeWindow ..).trans (work_setLine ..)

theorem work_edgeWalked (s : State) (line : Line) : (s.edgeWalked line).work = s.work := by
  rw [edgeWalked_eq]
  exact work_foldl (f := fun t g => t.overrun g line (s.line line).counter) (fun _ _ => rfl) (s.lost line) s

theorem work_openWindow (s : State) (line : Line) (gs : List (Fin 8)) : (s.openWindow line gs).work = s.work := by
  unfold State.openWindow
  split_ifs
  · rfl
  · exact work_setLine ..

/-! ## The withdrawal of an abort (R92) -/

/-- What an abort leaves of a lane. -/
def Lane.aborted (x : Lane) (g : Fin 8) : Lane :=
  { x with flight := x.flight.bind (abortFlight g), queue := x.queue.filter fun j => !j.ofGroup g }

/-- How many records an abort withdraws from a lane. -/
def Lane.abortCount (x : Lane) (g : Fin 8) : Nat :=
  x.queue.countP (Job.ofGroup g) + if x.flight.any (·.endsAtAbort g) then 1 else 0

theorem lane_abortLanes (s : State) (g : Fin 8) (l : Fin 4) : (s.abortLanes g).lane l = (s.lane l).aborted g := by
  have flights := foldl_upTo (get := State.lane) (f := fun _ x => { x with flight := x.flight.bind (abortFlight g) })
    (upd := fun s l => s.setFlight l ((s.lane l).flight.bind (abortFlight g)))
    (fun s i j => by rw [State.setFlight, State.lane_setLane]) (s.dropQueued (Job.ofGroup g)) l
  rw [State.abortLanes, flights, lane_dropQueued]
  rfl

theorem abortCount_eq (s : State) (g : Fin 8) : s.abortCount g = ∑ l, (s.lane l).abortCount g := by
  simp only [Lane.abortCount, Finset.sum_add_distrib]
  rw [State.abortCount, State.queuedCount, sum_upTo]
  refine congrArg (_ + ·) ?_
  rw [← sum_upTo]
  induction upTo 4 with
  | nil => rfl
  | cons l lanes ih =>
    rw [List.countP_cons, ih, List.map_cons, List.sum_cons, Nat.add_comm]
    cases (s.lane l).flight <;> rfl

/-- The job in flight is ended by the abort, or stays the same job. -/
theorem abortFlight_cases (g : Fin 8) (f : Flight) :
    (f.endsAtAbort g = true ∧ f.job.ofGroup g = true ∧ abortFlight g f = none) ∨
      (f.endsAtAbort g = false ∧ ∃ f', abortFlight g f = some f' ∧ f'.job = f.job) := by
  unfold abortFlight
  split_ifs with ends group
  · exact .inl ⟨ends, (Bool.and_eq_true_iff.1 ends).1, rfl⟩
  · exact .inr ⟨by simpa using ends, _, rfl, rfl⟩
  · exact .inr ⟨by simpa using ends, _, rfl, rfl⟩

/-- Of a lane's jobs the abort takes records of the group, and those alone. -/
theorem countP_aborted (x : Lane) (g : Fin 8) :
    (x.aborted g).jobs.countP (Job.ofGroup g) + x.abortCount g = x.jobs.countP (Job.ofGroup g) ∧
      ∀ p : Job → Bool, (∀ j, p j = true → j.ofGroup g = false) → (x.aborted g).jobs.countP p = x.jobs.countP p := by
  have queue : (x.queue.filter fun j => !j.ofGroup g).countP (Job.ofGroup g) = 0 :=
    List.countP_eq_zero.2 fun j hj => by simpa using (List.mem_filter.1 hj).2
  have kept (p : Job → Bool) (hp : ∀ j, p j = true → j.ofGroup g = false) :
      (x.queue.filter fun j => !j.ofGroup g).countP p = x.queue.countP p := by
    rw [List.countP_filter]
    exact List.countP_congr fun j _ => by simpa using hp j
  cases hf : x.flight with
  | none =>
    simp only [Lane.jobs, Lane.aborted, Lane.abortCount, hf, Option.bind_none, List.nil_append, queue]
    exact ⟨by simp, kept⟩
  | some f =>
    rcases abortFlight_cases g f with ⟨ends, group, aborted⟩ | ⟨stays, f', aborted, job⟩
    · simp only [Lane.jobs, Lane.aborted, Lane.abortCount, hf, Option.bind_some, aborted, List.nil_append, queue,
        List.countP_append, List.countP_singleton, group, Option.any_some, ends]
      refine ⟨by simp; omega, fun p hp => ?_⟩
      have other : p f.job = false := by
        by_contra h
        rw [hp f.job (by simpa using h)] at group
        cases group
      simp [kept p hp, other]
    · simp only [Lane.jobs, Lane.aborted, Lane.abortCount, hf, Option.bind_some, aborted, queue, job,
        List.countP_append, Option.any_some, stays]
      refine ⟨by simp, fun p hp => by rw [kept p hp]⟩

/-- The records that an abort withdraws leave the lanes. -/
theorem jobCount_abortLanes_self (s : State) (g : Fin 8) :
    (s.abortLanes g).jobCount [] (Job.ofGroup g) + s.abortCount g = s.jobCount [] (Job.ofGroup g) := by
  have lane (l : Fin 4) := (countP_aborted (s.lane l) g).1
  simp only [State.jobCount, lane_abortLanes, abortCount_eq, List.countP_nil, Nat.add_zero, ← Finset.sum_add_distrib, lane]

theorem jobCount_abortLanes_other (s : State) {g : Fin 8} {p : Job → Bool} (hp : ∀ j, p j = true → j.ofGroup g = false) :
    (s.abortLanes g).jobCount [] p = s.jobCount [] p := by
  have lane (l : Fin 4) := (countP_aborted (s.lane l) g).2 p hp
  simp only [State.jobCount, lane_abortLanes, lane]

theorem tlu_abortLanes (s : State) (g : Fin 8) : (s.abortLanes g).tlu = s.tlu := by
  unfold State.abortLanes State.dropQueued
  refine foldl_keeps (P := fun t => t.tlu = s.tlu) (fun t l ht => ?_) _ _ ?_
  · exact ht
  · refine foldl_keeps (P := fun t => t.tlu = s.tlu) (fun t l ht => ?_) _ s rfl
    exact ht

/-! ## The jobs law, by what can happen to it -/

theorem loopTrue_of_tlu {s t : State} {hand hand' : List Job} {n : Fin 4} (h : t.tlu = s.tlu)
    (count : ∀ p : Job → Bool, (∀ j, p j = true → j.ofLoop n = true) → t.jobCount hand' p = s.jobCount hand p)
    (hs : s.loopTrue hand n) : t.loopTrue hand' n := by
  have entry : t.loop n = s.loop n := by rw [State.loop, h]; rfl
  rw [State.loopTrue, entry, count _ fun _ h => h, count _ fun _ => ofLoop_of_write]
  exact hs

/-- A record or a read in hand belongs to no loop. -/
theorem loopsTrue_hand {s : State} {j : Job} (h : ∀ n, j.ofLoop n = false) : s.loopsTrue [j] ↔ s.loopsTrue [] :=
  forall_congr' fun n => loopTrue_hand_other (h n)

theorem loopsTrue_recordEnd {s : State} (g : Fin 8) (i : Nat) (e : RecordEnd) (hs : s.loopsTrue []) :
    (s.recordEnd g i e).loopsTrue [] := fun n =>
  loopTrue_of_tlu (tlu_recordEnd ..) (fun p _ => jobCount_of_lanes (lanes_recordEnd ..) [] p) (hs n)

/-- A job of a loop ends. -/
theorem loopsTrue_loopJobEnd {s : State} {n : Fin 4} {k : LoopJobKind} {t : Fin 16} {reg : Half} {v : Val} (e : LoopEnd)
    (hs : s.loopsTrue [.loop n k t reg v]) : (s.loopJobEnd n k t reg e).loopsTrue [] :=
  loopsTrue_turn (loopTurn_loopJobEnd ..) (loopTrue_loopJobEnd (hs n) e) fun m hm =>
    (loopTrue_hand_other (by simpa [Job.ofLoop] using Ne.symm hm)).1 (hs m)

/-- The jobs law is kept through the lanes. -/
theorem jobSide_loops : JobSide State.loopsTrue where
  work h hs := loopsTrue_of_work h hs
  lane s _ _ h hs n := loopTrue_of_tlu (s := s) rfl (fun p _ => jobCount_setLane h p) (hs n)
  record _ g i _ e hs := loopsTrue_recordEnd g i e ((loopsTrue_hand fun _ => rfl).1 hs)
  loop _ _ _ _ _ _ e hs := loopsTrue_loopJobEnd e hs
  read _ _ _ _ := loopsTrue_hand fun _ => rfl

theorem loopsTrue_appendRecords {s : State} (g : Fin 8) (i : Nat) (l : List Record) (hs : s.loopsTrue []) :
    (s.appendRecords g i l).loopsTrue [] := by
  induction l generalizing s i with
  | nil => exact hs
  | cons r l ih => exact ih (i + 1) (jobSide_loops.queued ((loopsTrue_hand fun _ => rfl).2 hs))

theorem loopsTrue_launch {s : State} (e : Option LaunchEdge) (g : Fin 8) (hs : s.loopsTrue []) :
    (s.launch e g).loopsTrue [] :=
  loopsTrue_appendRecords g 0 _ fun n => loopTrue_of_tlu rfl (fun _ _ => rfl) (hs n)

theorem loopsTrue_launchAll {s : State} (line : Line) (gs : List (Fin 8)) (hs : s.loopsTrue []) :
    (s.launchAll line gs).loopsTrue [] :=
  foldl_keeps (P := State.loopsTrue []) (fun _ g ht => loopsTrue_launch _ g ht) gs s hs

/-- A loop that takes an edge appends the measure of a new cycle, when it has none (R112). -/
theorem loopsTrue_loopEdge {s : State} (line : Line) (n : Fin 4) (hs : s.loopsTrue []) :
    (s.loopEdge line n).loopsTrue [] := by
  rcases loopEdge_cases s line n with h | ⟨running, cycle, c, l, t, reg, h⟩
  · exact loopsTrue_of_work h hs
  · have jobsOut : (s.loop n).jobsOut = 0 := ((hs n).run running).1 cycle
    have none : s.jobCount [] (Job.ofLoop n) = 0 := (hs n).count.symm.trans jobsOut
    have nowrite : s.jobCount [] (Job.writeOfLoop n) = 0 := Nat.eq_zero_of_le_zero (none ▸ write_le s n)
    refine loopsTrue_turn (loopTurn_loopEdge s line n) ?_ fun m _ => hs m
    rw [h, State.loopTrue, loop_putJobs, State.loop_setLoop_self, jobCount_putJobs, jobCount_putJobs, jobCount_setLoop,
      jobCount_setLoop, none, nowrite]
    simp only [List.map_cons, List.map_nil, List.countP_singleton, Job.ofLoop, Job.writeOfLoop, beq_self_eq_true,
      bne_self_eq_false, Bool.and_false, if_true, if_false, Bool.false_eq_true, Nat.zero_add]
    exact .of_measure running rfl rfl

theorem loopsTrue_loopsEdge {s : State} (line : Line) (hs : s.loopsTrue []) : (s.loopsEdge line).loopsTrue [] :=
  foldl_keeps (P := State.loopsTrue []) (fun _ n ht => loopsTrue_loopEdge line n ht) _ s hs

theorem loopsTrue_edgeMade {s : State} (line : Line) (hs : s.loopsTrue []) : (s.edgeMade line).loopsTrue [] := by
  obtain ⟨front, back, -, h⟩ := edgeMade_eq s line
  rw [h]
  refine loopsTrue_of_work (work_openWindow ..) (loopsTrue_launchAll line back ?_)
  refine loopsTrue_loopsEdge line (loopsTrue_launchAll line front ?_)
  exact loopsTrue_of_work ((work_edgeWalked ..).trans (work_edgeBegun ..)) hs

/-- A loop that may start does not run, and has no job out (R107). -/
theorem startRefusal_none {s : State} {n : Fin 4} (h : s.startRefusal n = none) : (s.loop n).jobsOut = 0 := by
  simp only [State.startRefusal] at h
  split_ifs at h with _ _ _ _ out
  exact not_not.1 out

theorem loopsTrue_startLoop {s : State} {n : Fin 4} (h : s.startRefusal n = none) (hs : s.loopsTrue []) :
    (s.startLoop n).loopsTrue [] :=
  have jobsOut := startRefusal_none h
  loopsTrue_turn (loopTurn_of_decidedAt (decidedAt_startLoop s n))
    (loopTrue_decidedAt (decidedAt_startLoop s n) jobsOut ((hs n).count.symm.trans jobsOut)) fun m _ => hs m

theorem loopsTrue_stopLoop {s : State} (n : Fin 4) (hs : s.loopsTrue []) : (s.stopLoop n).loopsTrue [] := by
  refine loopsTrue_turn (loopTurn_stopLoop s n) ?_ fun m _ => hs m
  rw [stopLoop_eq]
  exact loopTrue_left (st := .stopped) rfl (hs n).count (hs n).most rfl rfl rfl

/-- An abort withdraws records only (R92). -/
theorem loopsTrue_abort {s : State} (tag : Byte) (g : Fin 8) (hs : s.loopsTrue []) : (s.abort tag g).loopsTrue [] := by
  have withdrawn (n : Nat) {t : State} (ht : t.loopsTrue []) : (t.recordsWithdrawn g n).loopsTrue [] := by
    induction n generalizing t with
    | zero => exact ht
    | succ n ih => exact ih (loopsTrue_recordEnd g 0 .withdrawn ht)
  refine withdrawn _ (loopsTrue_of_work (work_answer ..) fun n => ?_)
  refine loopTrue_of_tlu (tlu_abortLanes ..) (fun p hp => ?_) (hs n)
  refine jobCount_abortLanes_other (s.setAccount g _) fun j hj => ?_
  cases j with
  | loop m k t reg v => rfl
  | read tag t reg => rfl
  | record g' i r => cases hp _ hj

/-- A reset of the lanes ends every cycle (R126). -/
theorem loopsTrue_cutLanes {s : State} (hs : s.loopsTrue []) : s.cutLanes.loopsTrue [] := by
  intro n
  have none := jobCount_zero (cutLanes_jobs s)
  rw [State.loopTrue, none, none]
  cases hr : (s.loop n).state.running with
  | false =>
    rw [loop_cutLanes_rest hr]
    exact .of_over ((hs n).rest hr) rfl (Nat.zero_le 2) fun _ => rfl
  | true =>
    obtain ⟨unadopted, adopted⟩ := loop_cutLanes_run hr rfl
    by_cases h : ((upTo 4).filterMap fun l => (s.loop n).adoption (s.lane l)) = []
    · rw [unadopted h]
      exact .of_over rfl rfl (Nat.zero_le 2) fun _ => rfl
    · obtain ⟨v, -, hv⟩ := adopted h
      rw [hv]
      exact .of_over rfl rfl (Nat.zero_le 2) fun _ => rfl

theorem loopsTrue_blocksReset (s : State) (c : Suc) (r : Baud) : (s.blocksReset c r).loopsTrue [] := by
  intro n
  have none := jobCount_zero (jobs_blocksReset s c r)
  have entry : (s.blocksReset c r).loop n = LoopEntry.reset := by simp [State.loop, State.blocksReset]
  rw [State.loopTrue, none, none, entry]
  exact .of_over rfl rfl (Nat.zero_le 2) fun _ => rfl

/-- Every step keeps the jobs law. -/
theorem jobKept_loops : JobKept (fun _ => True) State.loopsTrue where
  toJobSide := jobSide_loops
  known _ _ _ ha := ha
  launch _ g _ _ hs := loopsTrue_launch _ g hs
  edge _ line _ hs := loopsTrue_edgeMade line hs
  start _ _ h hs := loopsTrue_startLoop h hs
  stop _ n hs := loopsTrue_stopLoop n hs
  abort _ tag g hs := loopsTrue_abort tag g hs
  cut _ hs := loopsTrue_cutLanes hs
  cleared _ _ hs n := loopTrue_of_tlu rfl (fun _ _ => rfl) (hs n)
  blocks s c r := loopsTrue_blocksReset s c r

end Sys2Proof.Machine
end

section
/-! SUPPORT. The arm-list law through every change to the ledger (R65, R69, R70, R78). -/

namespace Sys2Proof.Machine

/-! ## The law, group by group -/

/-- The group has an entry in the arm list. -/
def State.listed (s : State) (g : Fin 8) : Prop := g ∈ s.sau.arm.map (·.group)

/-- What the law says of a group: whether it is listed, its state, and for how many records its launch waits. -/
structure ArmTrue (listed : Prop) (st : GroupState) (pending : Nat) : Prop where
  claimed : listed → st = .armed ∨ st = .launching
  armed : st = .armed → listed
  waiting : pending ≠ 0 → st = .launching

def State.armTrue (s : State) (g : Fin 8) : Prop := ArmTrue (s.listed g) (s.group g).state (s.account g).pending

theorem armLaw_iff (s : State) : s.armLaw ↔ (s.sau.arm.map (·.group)).Nodup ∧ ∀ g, s.armTrue g := by
  constructor
  · rintro ⟨nodup, claimed, armed, waiting⟩
    refine ⟨nodup, fun g => ⟨fun h => ?_, armed g, waiting g⟩⟩
    obtain ⟨a, ha, rfl⟩ := List.mem_map.1 h
    exact claimed a ha
  · rintro ⟨nodup, each⟩
    exact ⟨nodup, fun a ha => (each a.group).claimed (List.mem_map_of_mem ha), fun g => (each g).armed,
      fun g => (each g).waiting⟩

theorem listed_iff (s : State) (g : Fin 8) : s.listed g ↔ (s.armEntry g).isSome = true := by
  simp [State.listed, State.armEntry]

section
variable {listed : Prop} {st : GroupState} {pending : Nat}

/-- A LAUNCHING group may be listed, and its launch may wait. -/
theorem ArmTrue.of_launching (h : st = .launching) : ArmTrue listed st pending where
  claimed _ := .inr h
  armed h' := by rw [h] at h'; cases h'
  waiting _ := h

/-- An ARMED group is listed. -/
theorem ArmTrue.of_armed (h : st = .armed) (hl : listed) (hp : pending = 0) : ArmTrue listed st pending where
  claimed _ := .inl h
  armed _ := hl
  waiting h' := absurd hp h'

/-- A group in another state is not listed. -/
theorem ArmTrue.of_idle (h : st.claims = false) (hl : ¬listed) (hp : pending = 0) : ArmTrue listed st pending where
  claimed h' := absurd h' hl
  armed h' := by rw [h'] at h; cases h
  waiting h' := absurd hp h'

theorem ArmTrue.pending_zero (h : ArmTrue listed st pending) (hst : st ≠ .launching) : pending = 0 :=
  not_not.1 fun hp => hst (h.waiting hp)

theorem ArmTrue.unlisted (h : ArmTrue listed st pending) (hst : st.claims = false) : ¬listed := fun hl => by
  rcases h.claimed hl with rfl | rfl <;> cases hst

/-- A group goes from one idle state to another. -/
theorem ArmTrue.idled (h : ArmTrue listed st pending) (hst : st.claims = false) {st' : GroupState}
    (hst' : st'.claims = false) : ArmTrue listed st' pending :=
  .of_idle hst' (h.unlisted hst) (h.pending_zero fun h' => by rw [h'] at hst; cases hst)

end

/-! ## What leaves the law as it is -/

/-- The law is about the arm list, the states of the groups, and the records pending. -/
theorem armLaw_same {s t : State} (arm : t.sau.arm = s.sau.arm) (state : ∀ g, (t.group g).state = (s.group g).state)
    (pending : ∀ g, (t.account g).pending = (s.account g).pending) (hs : s.armLaw) : t.armLaw := by
  rw [armLaw_iff] at hs ⊢
  simp only [State.armTrue, State.listed, arm, state, pending]
  exact hs

/-- The law is kept when one group changes, and is true of it. -/
theorem armLaw_of_one {s t : State} (g : Fin 8) (arm : t.sau.arm = s.sau.arm)
    (others : ∀ g', g ≠ g' → (t.group g').state = (s.group g').state ∧ (t.account g').pending = (s.account g').pending)
    (own : ArmTrue (s.listed g) (t.group g).state (t.account g).pending) (hs : s.armLaw) : t.armLaw := by
  rw [armLaw_iff] at hs ⊢
  obtain ⟨nodup, each⟩ := hs
  refine ⟨by rw [arm]; exact nodup, fun g' => ?_⟩
  rw [State.armTrue, State.listed, arm]
  by_cases h : g = g'
  · exact h ▸ own
  · obtain ⟨state, pending⟩ := others g' h
    rw [state, pending]
    exact each g'

/-- A group takes a new entry. -/
theorem armLaw_setGroup {s : State} {g : Fin 8} {e : GroupEntry} (hs : s.armLaw)
    (own : ArmTrue (s.listed g) e.state (s.account g).pending) : (s.setGroup g e).armLaw :=
  armLaw_of_one (s := s) g rfl (fun g' h => ⟨by rw [State.group_setGroup, if_neg h], rfl⟩)
    (by rw [State.group_setGroup_self]; exact own) hs

/-- A group goes from one idle state to another. -/
theorem armLaw_idled {s : State} {g : Fin 8} {e : GroupEntry} (hs : s.armLaw) (hg : (s.group g).state.claims = false)
    (he : e.state.claims = false) : (s.setGroup g e).armLaw :=
  armLaw_setGroup hs ((((armLaw_iff s).1 hs).2 g).idled hg he)

/-- Without entries, and with no launch waiting, the law is that no group is ARMED. -/
theorem armLaw_cleared {s : State} (arm : s.sau.arm = []) (gtb : s.gtb = Gtb.reset)
    (lsq : s.lsq = Vector.replicate 8 Account.reset) : s.armLaw := by
  refine (armLaw_iff s).2 ⟨by simp [arm], fun g => .of_idle ?_ (by simp [State.listed, arm]) ?_⟩
  · simp [State.group, gtb, Gtb.reset, GroupEntry.reset, GroupState.claims]
  · simp [State.account, lsq, Account.reset]

/-! ## The end of a record (R84, R89) -/

theorem state_counted (x : GroupEntry) (i : Nat) (e : RecordEnd) : (x.counted i e).state = x.state := by
  cases e <;> rfl

/-- A launch that completes leaves its group as its place in the arm list says (R89). -/
theorem state_complete (s : State) (g : Fin 8) :
    ((s.complete g).group g).state = if (s.armEntry g).isSome then .armed else .ready :=
  congrArg GroupEntry.state (State.group_setGroup_self s g _)

theorem armLaw_recordEnd {s : State} (g : Fin 8) (i : Nat) (e : RecordEnd) (hs : s.armLaw) :
    (s.recordEnd g i e).armLaw := by
  have each := ((armLaw_iff s).1 hs).2 g
  simp only [State.recordEnd]
  generalize hu : (s.setGroup g ((s.group g).counted i e)).setAccount g _ = u
  have arm : u.sau.arm = s.sau.arm := by rw [← hu]; rfl
  have others (g' : Fin 8) (h : g ≠ g') : u.group g' = s.group g' ∧ u.account g' = s.account g' := by
    rw [← hu, State.account_setAccount, if_neg h, State.group_setAccount, State.group_setGroup, if_neg h]
    exact ⟨rfl, rfl⟩
  have pending : (u.account g).pending = (s.account g).pending - 1 := by
    rw [← hu, State.account_setAccount, if_pos rfl]
  split_ifs with none last
  · exact hs
  · refine armLaw_of_one g arm (fun g' h => ?_) ?_ hs
    · obtain ⟨group, account⟩ := others g' h
      rw [group_complete_other u h, account_complete, group, account]
      exact ⟨rfl, rfl⟩
    · have listed : s.listed g ↔ (u.armEntry g).isSome = true := by
        rw [listed_iff, State.armEntry, State.armEntry, arm]
      rw [state_complete, account_complete, pending, listed]
      split_ifs with h
      · exact .of_armed rfl h (by omega)
      · exact .of_idle rfl h (by omega)
  · refine armLaw_of_one g arm (fun g' h => ?_) (.of_launching ?_) hs
    · obtain ⟨group, account⟩ := others g' h
      rw [group, account]
      exact ⟨rfl, rfl⟩
    · rw [← hu, State.group_setAccount, State.group_setGroup_self, state_counted]
      exact each.waiting none

/-! ## Launches (R79) -/

theorem state_launch (s : State) (e : Option LaunchEdge) (g g' : Fin 8) :
    ((s.launch e g).group g').state = if g = g' then .launching else (s.group g').state := by
  obtain ⟨x, h⟩ := launch_eq s e g
  rw [h]
  refine (congrArg GroupEntry.state (State.group_setGroup s g g' _)).trans ?_
  split_ifs <;> rfl

theorem account_launch (s : State) (e : Option LaunchEdge) (g g' : Fin 8) :
    (s.launch e g).account g' = if g = g' then ⟨(s.group g).records.length, false, false⟩ else s.account g' := by
  obtain ⟨x, h⟩ := launch_eq s e g
  rw [h]
  exact State.account_setAccount (s.setGroup g _) g g' _

theorem state_launchAll (s : State) (line : Line) (gs : List (Fin 8)) (g : Fin 8) :
    ((s.launchAll line gs).group g).state = if g ∈ gs then .launching else (s.group g).state := by
  unfold State.launchAll
  induction gs generalizing s with
  | nil => rfl
  | cons g' gs ih =>
    rw [List.foldl_cons, ih, state_launch]
    by_cases h : g' = g
    · simp [h]
    · simp [h, Ne.symm h]

theorem account_launchAll_other (s : State) (line : Line) {gs : List (Fin 8)} {g : Fin 8} (h : g ∉ gs) :
    (s.launchAll line gs).account g = s.account g := by
  unfold State.launchAll
  induction gs generalizing s with
  | nil => rfl
  | cons g' gs ih =>
    rw [List.mem_cons, not_or] at h
    obtain ⟨hg, hgs⟩ := h
    rw [List.foldl_cons, ih _ hgs, account_launch, if_neg (Ne.symm hg)]

/-! ## An edge (R61, R69 to R72) -/

theorem account_of_ledger {s t : State} (h : t.ledger = s.ledger) (g : Fin 8) : t.account g = s.account g :=
  congrArg (fun x : Gtb × Table Account 8 × Sau => x.2.1[g]) h

theorem group_of_ledger {s t : State} (h : t.ledger = s.ledger) (g : Fin 8) : t.group g = s.group g :=
  congrArg (fun x : Gtb × Table Account 8 × Sau => x.1.groups[g]) h

theorem pending_of_work {s t : State} (h : t.work = s.work) (g : Fin 8) :
    (t.account g).pending = (s.account g).pending :=
  congrFun (congrArg (fun x => x.2.1) h) g

theorem group_openWindow (s : State) (line : Line) (gs : List (Fin 8)) (g : Fin 8) :
    (s.openWindow line gs).group g = s.group g := by
  unfold State.openWindow
  split_ifs
  · rfl
  · rw [State.group, State.setLine_gtb]
    rfl

theorem arm_openWindow (s : State) (line : Line) (gs : List (Fin 8)) :
    (s.openWindow line gs).sau.arm = s.sau.arm := by
  unfold State.openWindow
  split_ifs
  · rfl
  · exact State.setLine_arm ..

theorem state_overrun (s : State) (g g' : Fin 8) (line : Line) (n : Half) :
    ((s.overrun g line n).group g').state = (s.group g').state := by
  rw [State.overrun, State.group_notify, State.group_setGroup]
  split_ifs with h
  · rw [h]
  · rfl

theorem state_edgeWalked (s : State) (line : Line) (g : Fin 8) :
    ((s.edgeWalked line).group g).state = (s.group g).state := by
  rw [edgeWalked_eq, State.group_setArm]
  refine foldl_keeps (P := fun t => (t.group g).state = (s.group g).state) (fun t g' ht => ?_) _ s rfl
  rw [state_overrun, ht]

/-- An edge leaves LAUNCHING the groups that it finds due, and every other as it was. -/
theorem state_edgeMade (s : State) (line : Line) (g : Fin 8) :
    ((s.edgeMade line).group g).state = if g ∈ s.dueAt line then .launching else (s.group g).state := by
  obtain ⟨front, back, due, h⟩ := edgeMade_eq s line
  have drawn (t : State) : (t.drawn.group g).state = (t.group g).state := rfl
  rw [h, drawn, group_openWindow, state_launchAll, group_of_ledger (ledger_loopsEdge ..), state_launchAll,
    state_edgeWalked, state_edgeBegun, due]
  by_cases hf : g ∈ front
  · simp [hf]
  · by_cases hb : g ∈ back
    · simp [hb]
    · simp [hf, hb]

theorem pending_edgeMade_other (s : State) (line : Line) {g : Fin 8} (hg : g ∉ s.dueAt line) :
    ((s.edgeMade line).account g).pending = (s.account g).pending := by
  obtain ⟨front, back, due, h⟩ := edgeMade_eq s line
  rw [due, List.mem_append, not_or] at hg
  obtain ⟨hf, hb⟩ := hg
  have drawn (t : State) : (t.drawn.account g).pending = (t.account g).pending := rfl
  rw [h, drawn, pending_of_work (work_openWindow ..), account_launchAll_other _ line hb,
    account_of_ledger (ledger_loopsEdge ..), account_launchAll_other _ line hf,
    pending_of_work ((work_edgeWalked ..).trans (work_edgeBegun ..))]

/-- The walk moves each entry of the arm list, as the states before the edge say (R69). -/
theorem arm_edgeMade (s : State) (line : Line) :
    (s.edgeMade line).sau.arm = s.sau.arm.filterMap fun e => e.moved line (s.launchingEntry e) := by
  obtain ⟨front, back, -, h⟩ := edgeMade_eq s line
  have drawn (t : State) : t.drawn.sau.arm = t.sau.arm := rfl
  have launched (t : State) (gs : List (Fin 8)) : (t.launchAll line gs).sau = t.sau :=
    foldl_keeps (P := fun u => u.sau = t.sau) (fun u g hu => (sau_launch ..).trans hu) gs t rfl
  have walked (t : State) : (t.edgeWalked line).sau.arm = (t.walk line t.sau.arm).arm := rfl
  rw [h, drawn, arm_openWindow, launched, sau_loopsEdge, launched, walked, walk_eq, arm_edgeBegun]
  simp only [State.launchingEntry, state_edgeBegun]

theorem moved_group {line : Line} {b : Bool} {e e' : ArmEntry} (h : e.moved line b = some e') : e'.group = e.group := by
  unfold ArmEntry.moved at h
  split_ifs at h <;> cases h <;> rfl

/-- Only an entry that is due may leave the list (R70). -/
theorem moved_isSome {line : Line} {b : Bool} {e : ArmEntry} (h : (e.ripe line && !b) = false) :
    (e.moved line b).isSome = true := by
  unfold ArmEntry.moved
  split_ifs with hline hcount hb
  · rfl
  · rfl
  · rfl
  · rfl
  · simp_all

/-- The entries that are left are of the groups they were of, in their order. -/
theorem groups_filterMap {f : ArmEntry → Option ArmEntry} (h : ∀ e e', f e = some e' → e'.group = e.group)
    (arm : List ArmEntry) : ((arm.filterMap f).map (·.group)).Sublist (arm.map (·.group)) := by
  induction arm with
  | nil => exact List.Sublist.refl _
  | cons e arm ih =>
    cases he : f e with
    | none => rw [List.filterMap_cons_none he]; exact ih.cons _
    | some e' =>
      rw [List.filterMap_cons_some he, List.map_cons, List.map_cons, h e e' he]
      exact ih.cons_cons _

/-- A group that is due is ARMED (R70). -/
theorem armed_of_due {s : State} {line : Line} (hs : s.armLaw) {g : Fin 8} (hg : g ∈ s.dueAt line) :
    (s.group g).state = .armed := by
  rw [dueAt_eq] at hg
  obtain ⟨e, he, rfl⟩ := List.mem_map.1 hg
  obtain ⟨listed, due⟩ := List.mem_filter.1 he
  obtain ⟨-, claimed, -, -⟩ := hs
  rcases claimed e listed with h | h
  · exact h
  · simp [State.launchingEntry, h] at due

theorem nodup_dueAt {s : State} (line : Line) (hs : s.armLaw) : (s.dueAt line).Nodup := by
  obtain ⟨nodup, -⟩ := hs
  rw [dueAt_eq]
  exact (List.filter_sublist.map _).nodup nodup

theorem armLaw_edgeMade {s : State} (line : Line) (hs : s.armLaw) : (s.edgeMade line).armLaw := by
  obtain ⟨nodup, each⟩ := (armLaw_iff s).1 hs
  have groups := groups_filterMap (f := fun e => e.moved line (s.launchingEntry e)) (fun _ _ h => moved_group h) s.sau.arm
  rw [armLaw_iff, arm_edgeMade]
  refine ⟨groups.nodup nodup, fun g => ?_⟩
  rw [State.armTrue, State.listed, arm_edgeMade, state_edgeMade]
  split_ifs with due
  · exact .of_launching rfl
  · rw [pending_edgeMade_other s line due]
    obtain ⟨claimed, armed, waiting⟩ := each g
    refine ⟨fun h => claimed (groups.subset h), fun h => ?_, waiting⟩
    obtain ⟨e, he, rfl⟩ := List.mem_map.1 (armed h)
    have undue : (e.ripe line && !s.launchingEntry e) = false := by
      by_contra hd
      rw [dueAt_eq] at due
      exact due (List.mem_map_of_mem (List.mem_filter.2 ⟨he, Bool.eq_true_of_not_eq_false hd⟩))
    obtain ⟨e', he'⟩ := Option.isSome_iff_exists.1 (moved_isSome undue)
    exact List.mem_map.2 ⟨e', List.mem_filterMap.2 ⟨e, he, he'⟩, moved_group he'⟩

/-! ## Arming and disarming (R65 to R67) -/

theorem armLaw_armGroup {s : State} {g : Fin 8} (hg : (s.group g).state = .ready) (l : Line) (x : Byte) (m : ArmMode)
    (hs : s.armLaw) : (s.armGroup g l x m).armLaw := by
  obtain ⟨nodup, each⟩ := (armLaw_iff s).1 hs
  have idle : (s.group g).state.claims = false := by rw [hg]; rfl
  have unlisted := (each g).unlisted idle
  have list : (s.armGroup g l x m).sau.arm.map (·.group) = s.sau.arm.map (·.group) ++ [g] := List.map_append
  rw [armLaw_iff, list]
  refine ⟨List.nodup_append.2 ⟨nodup, List.nodup_singleton g, fun a ha b hb => ?_⟩, fun g' => ?_⟩
  · rw [List.mem_singleton.1 hb]
    exact fun h => unlisted (h ▸ ha)
  · have state : ((s.armGroup g l x m).group g').state = if g = g' then .armed else (s.group g').state :=
      (congrArg GroupEntry.state (State.group_setGroup s g g' _)).trans (by split_ifs <;> rfl)
    have account : (s.armGroup g l x m).account g' = s.account g' := rfl
    rw [State.armTrue, State.listed, list, state, account]
    split_ifs with h
    · refine .of_armed rfl (by simp [h]) (h ▸ (each g).pending_zero ?_)
      simp [hg]
    · rw [List.mem_append, List.mem_singleton, or_iff_left (Ne.symm h)]
      exact each g'

theorem armLaw_disarmed {s : State} (g : Fin 8) (hs : s.armLaw) :
    ((s.setGroup g
      { s.group g with state := if (s.group g).state = .armed then .ready else (s.group g).state }).setArm
      (s.sau.arm.filter fun a => a.group != g)).armLaw := by
  obtain ⟨nodup, each⟩ := (armLaw_iff s).1 hs
  have listed (g' : Fin 8) :
      g' ∈ (s.sau.arm.filter fun a => a.group != g).map (·.group) ↔ s.listed g' ∧ g' ≠ g := by
    simp only [State.listed, List.mem_map, List.mem_filter, bne_iff_ne]
    constructor
    · rintro ⟨a, ⟨ha, hg⟩, rfl⟩
      exact ⟨⟨a, ha, rfl⟩, hg⟩
    · rintro ⟨⟨a, ha, rfl⟩, hg⟩
      exact ⟨a, ⟨ha, hg⟩, rfl⟩
  refine (armLaw_iff _).2 ⟨(List.filter_sublist.map _).nodup nodup, fun g' => ?_⟩
  rw [State.armTrue, State.listed, State.group_setArm, State.group_setGroup]
  change ArmTrue (g' ∈ (s.sau.arm.filter fun a => a.group != g).map (·.group)) _ (s.account g').pending
  rw [listed]
  by_cases h : g = g'
  · subst h
    rw [if_pos rfl]
    obtain ⟨claimed, armed, waiting⟩ := each g
    refine ⟨fun hl => absurd rfl hl.2, fun hst => ?_, fun hp => ?_⟩
    · simp only at hst
      split_ifs at hst with h
      exact absurd hst h
    · simp [waiting hp]
  · rw [if_neg h, and_iff_left (Ne.symm h)]
    exact each g'

/-! ## Every change -/

theorem armLaw_of_ledger {s t : State} (h : t.ledger = s.ledger) (hs : s.armLaw) : t.armLaw :=
  armLaw_same (by rw [sau_of_ledger h]) (fun g => by rw [group_of_ledger h]) (fun g => by rw [account_of_ledger h]) hs

/-- A change of records leaves the law (R1). -/
theorem armLaw_of_group {s t : State} (h : t.group = s.group) (arm : t.sau.arm = s.sau.arm)
    (account : t.account = s.account) (hs : s.armLaw) : t.armLaw :=
  armLaw_same arm (fun g => by rw [h]) (fun g => by rw [account]) hs

theorem armLaw_setAccount {s : State} (g : Fin 8) {a : Account} (ha : a.pending = (s.account g).pending) (hs : s.armLaw) :
    (s.setAccount g a).armLaw :=
  armLaw_same (s := s) rfl (fun _ => rfl) (fun g' => by
    rw [State.account_setAccount]
    split_ifs with h
    · rw [ha, h]
    · rfl) hs

/-- A group of the same state. -/
theorem armLaw_marked {s : State} {g : Fin 8} {e : GroupEntry} (he : e.state = (s.group g).state) (hs : s.armLaw) :
    (s.setGroup g e).armLaw :=
  armLaw_setGroup hs (by rw [he]; exact ((armLaw_iff s).1 hs).2 g)

theorem armLaw_launch {s : State} (e : Option LaunchEdge) (g : Fin 8) (hs : s.armLaw) : (s.launch e g).armLaw :=
  armLaw_of_one g (by rw [sau_launch])
    (fun g' h => by rw [state_launch, account_launch, if_neg h, if_neg h]; exact ⟨rfl, rfl⟩)
    (.of_launching (by rw [state_launch, if_pos rfl])) hs

/-- Every change to the ledger keeps the arm-list law. -/
theorem groupSide_armLaw : GroupSide State.armLaw where
  frame _ _ h hs := armLaw_of_ledger h hs
  ended _ g i e hs := armLaw_recordEnd g i e hs
  flags _ g _ ha hs := armLaw_setAccount g ha hs
  marks _ _ _ h _ hs := armLaw_marked h hs
  lines _ _ h hs := armLaw_same h (fun _ => rfl) (fun _ => rfl) hs
  edge _ l hs := armLaw_edgeMade l hs
  applied _ g _ hs := armLaw_launch none g hs
  opened _ _ hg hs := armLaw_idled hs (by rw [hg]; rfl) rfl
  added s g l _ _ hs := armLaw_of_group (group_setRecords s g _) rfl rfl (armLaw_marked rfl hs)
  closed _ _ hg _ hs := armLaw_idled hs (by rw [hg]; rfl) rfl
  emptied s g hg hs := armLaw_of_group (group_setGroup_setRecords s g [] _) rfl rfl
    (armLaw_idled hs (by rcases hg with hg | hg | hg <;> rw [hg] <;> rfl) rfl)
  reserved _ _ hg hs := armLaw_idled hs (by rw [hg]; rfl) rfl
  filled s g l hg _ hs := armLaw_of_group (group_setGroup_setRecords s g l _) rfl rfl
    (armLaw_idled hs (by rw [hg]; rfl) rfl)
  armed _ _ l x m hg hs := armLaw_armGroup hg l x m hs
  disarmed _ g _ hs := armLaw_disarmed g hs
  cleared s _ := armLaw_cleared (s := s.resetGroups) rfl rfl rfl
  blocks s c r _ := armLaw_cleared (s := s.blocksReset c r) rfl rfl rfl

end Sys2Proof.Machine
end

section
/-! SUPPORT. The launch accounts through every step, and the laws of the arm list, the accounts and the loops' jobs together
(R65, R78, R111). -/

namespace Sys2Proof.Machine

/-! ## The accounts (R78) -/

/-- The accounting law, with jobs in hand. -/
def State.pendingTrue (hand : List Job) (s : State) : Prop :=
  ∀ g, (s.account g).pending = s.jobCount hand (Job.ofGroup g)

theorem pendingLaw_iff (s : State) : s.pendingLaw ↔ s.pendingTrue [] :=
  forall_congr' fun g => by rw [jobCount_nil]

/-- The end of a record is counted in the account of its group (R84). -/
theorem pending_recordEnd (s : State) (g g' : Fin 8) (i : Nat) (e : RecordEnd) :
    ((s.recordEnd g i e).account g').pending = (s.account g').pending - if g = g' then 1 else 0 := by
  have counted (a : Account) (ha : a.pending = (s.account g).pending - 1) :
      (((s.setGroup g ((s.group g).counted i e)).setAccount g a).account g').pending =
        (s.account g').pending - if g = g' then 1 else 0 := by
    rw [State.account_setAccount]
    split_ifs with h
    · rw [ha, h]
    · rfl
  simp only [State.recordEnd]
  by_cases none : (s.account g).pending = 0
  · rw [if_pos none]
    split_ifs with h
    · rw [← h, none]
    · rfl
  · rw [if_neg none]
    by_cases last : (s.account g).pending = 1
    · rw [if_pos last]
      exact counted _ rfl
    · rw [if_neg last]
      exact counted _ rfl

theorem pendingTrue_recordEnd {s : State} {g : Fin 8} {i : Nat} {r : Record} (e : RecordEnd)
    (hs : s.pendingTrue [.record g i r]) : (s.recordEnd g i e).pendingTrue [] := fun g' => by
  rw [pending_recordEnd, hs g', jobCount_of_lanes (lanes_recordEnd ..), jobCount_hand s [Job.record g i r],
    List.countP_singleton, Job.ofGroup]
  by_cases h : g = g'
  · simp [h]
  · simp [h]

/-- A job that is no record does not count. -/
theorem pendingTrue_hand {s : State} {j : Job} (h : ∀ g, j.ofGroup g = false) :
    s.pendingTrue [j] ↔ s.pendingTrue [] := by
  refine forall_congr' fun g => ?_
  rw [jobCount_hand s [j], List.countP_singleton, h g]
  exact Iff.rfl

theorem pendingTrue_of_work {s t : State} (h : t.work = s.work) {hand : List Job} (hs : s.pendingTrue hand) :
    t.pendingTrue hand := fun g => by
  rw [pending_of_work h, jobCount_of_work h]
  exact hs g

theorem pending_turn {s t : State} {n : Fin 4} (h : s.LoopTurn n t) (g : Fin 8) :
    (t.account g).pending = (s.account g).pending := by
  cases h with
  | put x jobs own work => rw [pending_of_work work, account_putJobs]; rfl
  | withdrawn x work =>
    rw [pending_of_work work, ← account_dropQueued s (Job.ofLoop n)]
    rfl

/-- A turn of a loop leaves the accounts and the records. -/
theorem pendingTrue_turn {s t : State} {n : Fin 4} (h : s.LoopTurn n t) (hs : s.pendingTrue []) : t.pendingTrue [] :=
  fun g => by
    have other (j : Job) (hj : j.ofGroup g = true) : j.ofLoop n = false := by
      obtain ⟨i, r, rfl⟩ := (ofGroup_iff g j).1 hj
      rfl
    rw [pending_turn h, jobCount_turn h other]
    exact hs g

/-- The accounting law is kept through the lanes. -/
theorem jobSide_pending : JobSide State.pendingTrue where
  work h hs := pendingTrue_of_work h hs
  lane _ _ _ h hs g := (hs g).trans (jobCount_setLane h _).symm
  record _ _ _ _ e hs := pendingTrue_recordEnd e hs
  loop _ _ _ _ _ _ _ hs := pendingTrue_turn (loopTurn_loopJobEnd ..) ((pendingTrue_hand fun _ => rfl).1 hs)
  read _ _ _ _ := pendingTrue_hand fun _ => rfl

/-! ## Launches (R79) -/

theorem jobCount_appendRecords (s : State) (g g' : Fin 8) (i : Nat) (l : List Record) :
    (s.appendRecords g i l).jobCount [] (Job.ofGroup g') =
      s.jobCount [] (Job.ofGroup g') + if g = g' then l.length else 0 := by
  induction l generalizing s i with
  | nil => simp [State.appendRecords]
  | cons r l ih =>
    rw [State.appendRecords, ih, jobCount_appendJob, jobCount_hand, List.countP_singleton, Job.ofGroup]
    by_cases h : g = g'
    · simp [h]; omega
    · simp [h]

/-- A launch of a group that waits for nothing waits for its records. -/
theorem pendingTrue_launch {s : State} (e : Option LaunchEdge) {g : Fin 8} (none : (s.account g).pending = 0)
    (hs : s.pendingTrue []) : (s.launch e g).pendingTrue [] := fun g' => by
  have jobs : (s.launch e g).jobCount [] (Job.ofGroup g') =
      s.jobCount [] (Job.ofGroup g') + if g = g' then (s.group g).records.length else 0 :=
    jobCount_appendRecords ((s.setGroup g _).setAccount g _) g g' 0 _
  rw [account_launch, jobs, ← hs g']
  split_ifs with h
  · rw [← h, none, Nat.zero_add]
  · rfl

/-- Launches of groups that wait for nothing, each of them once. -/
theorem pendingTrue_launchAll {s : State} (line : Line) {gs : List (Fin 8)} (nodup : gs.Nodup)
    (none : ∀ g ∈ gs, (s.account g).pending = 0) (hs : s.pendingTrue []) : (s.launchAll line gs).pendingTrue [] := by
  unfold State.launchAll
  induction gs generalizing s with
  | nil => exact hs
  | cons g gs ih =>
    obtain ⟨once, nodup⟩ := List.nodup_cons.1 nodup
    refine ih nodup (fun g' hg' => ?_) (pendingTrue_launch _ (none g List.mem_cons_self) hs)
    have other : g ≠ g' := fun h => once (h ▸ hg')
    rw [account_launch, if_neg other]
    exact none g' (List.mem_cons_of_mem _ hg')

theorem pendingTrue_loopsEdge {s : State} (line : Line) (hs : s.pendingTrue []) : (s.loopsEdge line).pendingTrue [] :=
  foldl_keeps (P := State.pendingTrue []) (fun t n ht => pendingTrue_turn (loopTurn_loopEdge t line n) ht) _ s hs

/-- The groups that an edge launches are ARMED, so they wait for nothing. -/
theorem pendingTrue_edgeMade {s : State} (line : Line) (ha : s.armLaw) (hs : s.pendingTrue []) :
    (s.edgeMade line).pendingTrue [] := by
  have none (g : Fin 8) (hg : g ∈ s.dueAt line) : (s.account g).pending = 0 :=
    (((armLaw_iff s).1 ha).2 g).pending_zero (by rw [armed_of_due ha hg]; simp)
  have nodup := nodup_dueAt line ha
  obtain ⟨front, back, due, h⟩ := edgeMade_eq s line
  rw [due] at none nodup
  obtain ⟨nodupFront, nodupBack, apart⟩ := List.nodup_append.1 nodup
  have walked : ((s.edgeBegun line).edgeWalked line).work = s.work := (work_edgeWalked ..).trans (work_edgeBegun ..)
  rw [h]
  refine pendingTrue_of_work (work_openWindow ..) (pendingTrue_launchAll line nodupBack (fun g hg => ?_) ?_)
  · have later : g ∉ front := fun hf => apart g hf g hg rfl
    rw [account_of_ledger (ledger_loopsEdge ..), account_launchAll_other _ line later, pending_of_work walked]
    exact none g (List.mem_append_right _ hg)
  · refine pendingTrue_loopsEdge line (pendingTrue_launchAll line nodupFront (fun g hg => ?_) ?_)
    · rw [pending_of_work walked]
      exact none g (List.mem_append_left _ hg)
    · exact pendingTrue_of_work walked hs

/-! ## Aborts and resets (R92, R99) -/

/-- The reports of the records that have left the lanes set the account right. -/
theorem pendingTrue_recordsWithdrawn {s : State} {g : Fin 8} {n : Nat}
    (hs : ∀ g', (s.account g').pending = s.jobCount [] (Job.ofGroup g') + if g = g' then n else 0) :
    (s.recordsWithdrawn g n).pendingTrue [] := by
  induction n generalizing s with
  | zero => exact show s.pendingTrue [] from fun g' => by simpa using hs g'
  | succ n ih =>
    refine ih fun g' => ?_
    rw [pending_recordEnd, hs g', jobCount_of_lanes (lanes_recordEnd ..)]
    split_ifs <;> omega

theorem pendingTrue_abort {s : State} (tag : Byte) (g : Fin 8) (hs : s.pendingTrue []) : (s.abort tag g).pendingTrue [] := by
  unfold State.abort
  refine pendingTrue_recordsWithdrawn fun g' => ?_
  rw [pending_of_work (work_answer ..), jobCount_of_work (work_answer ..), account_of_ledger (ledger_abortLanes ..)]
  generalize hu : s.setAccount g { s.account g with abortTaken := true } = u
  have jobs (p : Job → Bool) : u.jobCount [] p = s.jobCount [] p := by rw [← hu]; rfl
  have withdrawn : u.abortCount g = s.abortCount g := by
    rw [abortCount_eq, abortCount_eq, ← hu]
    rfl
  have pending : (u.account g').pending = (s.account g').pending := by
    rw [← hu, State.account_setAccount]
    split_ifs with h
    · rw [h]
    · rfl
  rw [pending, hs g', ← withdrawn, ← jobs]
  split_ifs with h
  · rw [← h]
    exact (jobCount_abortLanes_self u g).symm
  · rw [Nat.add_zero]
    refine (jobCount_abortLanes_other u fun j hj => ?_).symm
    obtain ⟨i, r, rfl⟩ := (ofGroup_iff g' j).1 hj
    simpa [Job.ofGroup] using Ne.symm h

theorem pendingTrue_cutLanes {s : State} (hs : s.pendingTrue []) : s.cutLanes.pendingTrue [] := fun g => by
  rw [jobCount_zero (cutLanes_jobs s), account_cutLanes]
  exact pending_cutJobs (pending_cutAll ((pendingLaw_iff s).2 hs) g)

theorem pendingTrue_cleared {s : State} (lsq : s.lsq = Vector.replicate 8 Account.reset) (jobs : ∀ l, (s.lane l).jobs = []) :
    s.pendingTrue [] := fun g => by
  rw [jobCount_zero jobs]
  simp [State.account, lsq, Account.reset]

/-- Under the arm-list law every step keeps the accounting law. -/
theorem jobKept_pending : JobKept State.armLaw State.pendingTrue where
  toJobSide := jobSide_pending
  known gtb lsq arm ha := armLaw_same arm (fun g => by rw [State.group, gtb]; rfl) (fun g => by rw [State.account, lsq]; rfl) ha
  launch s g ha hg hs := pendingTrue_launch none ((((armLaw_iff s).1 ha).2 g).pending_zero (by simp [hg])) hs
  edge _ line ha hs := pendingTrue_edgeMade line ha hs
  start s n _ hs := pendingTrue_turn (loopTurn_of_decidedAt (decidedAt_startLoop s n)) hs
  stop s n hs := pendingTrue_turn (loopTurn_stopLoop s n) hs
  abort _ tag g hs := pendingTrue_abort tag g hs
  cut _ hs := pendingTrue_cutLanes hs
  cleared _ jobs _ := pendingTrue_cleared rfl jobs
  blocks s c r := pendingTrue_cleared rfl (jobs_blocksReset s c r)

/-- Settles O26: each law is kept by every change of what it speaks of; the accounts need the arm-list law, by which the
groups that are launched wait for nothing. -/
theorem armAndPendingLawsKept : Obligations.ArmAndPendingLawsKept := by
  intro s t ht
  refine ⟨fun ha => ⟨groupSide_armLaw.step ha ht, fun hs => ?_⟩, fun hs => ?_⟩
  · rw [pendingLaw_iff] at hs ⊢
    exact jobKept_pending.step ha hs ht
  · rw [jobsLaw_iff] at hs ⊢
    exact jobKept_loops.step trivial hs ht

end Sys2Proof.Machine
end

section
/-! SUPPORT. What a launch appends, how a record's end is counted, and what a completion leaves (R79 to R90). -/

namespace Sys2Proof.Machine

/-! ## The records of a launch on the lanes (R79 to R81) -/

/-- The lane of a record is read off the targets and the loops (R80). -/
theorem recordLane_of_blocks {s t : State} (tgt : t.tgt = s.tgt) (tlu : t.tlu = s.tlu) : t.recordLane = s.recordLane := by
  have target : t.target = s.target := funext fun x => by rw [State.target, tgt]; rfl
  have loop : t.loop = s.loop := funext fun n => by rw [State.loop, tlu]; rfl
  funext r
  cases r <;> simp only [State.recordLane, target, loop]

theorem lane_appendJob (s : State) (l m : Fin 4) (j : Job) :
    (s.appendJob l j).lane m = { s.lane m with queue := (s.lane m).queue ++ if l = m then [j] else [] } := by
  rw [State.appendJob, State.lane_setLane]
  split_ifs with h
  · rw [h]
  · simp

/-- The jobs that records, from index `i` on, put on a lane (R80, R81). -/
def State.jobsOn (s : State) (g : Fin 8) (i : Nat) (records : List Record) (l : Fin 4) : List Job :=
  ((records.zipIdx i).filter fun p => s.recordLane p.1 == l).map fun p => .record g p.2 p.1

theorem jobsOn_cons (s : State) (g : Fin 8) (i : Nat) (r : Record) (records : List Record) (l : Fin 4) :
    s.jobsOn g i (r :: records) l =
      (if s.recordLane r = l then [.record g i r] else []) ++ s.jobsOn g (i + 1) records l := by
  rw [State.jobsOn, List.zipIdx_cons, List.filter_cons]
  split_ifs <;> simp_all [State.jobsOn]

/-- Records join the tails of their lanes in the order of their indices (R81). -/
theorem lane_appendRecords (s : State) (g : Fin 8) (i : Nat) (records : List Record) (l : Fin 4) :
    (s.appendRecords g i records).lane l =
      { s.lane l with queue := (s.lane l).queue ++ s.jobsOn g i records l } := by
  induction records generalizing s i with
  | nil => simp [State.appendRecords, State.jobsOn]
  | cons r records ih =>
    have same : (s.appendJob (s.recordLane r) (.record g i r)).recordLane = s.recordLane := recordLane_of_blocks rfl rfl
    rw [State.appendRecords, ih, lane_appendJob, jobsOn_cons, State.jobsOn, same, List.append_assoc]
    rfl

theorem lane_launch (s : State) (edge : Option LaunchEdge) (g : Fin 8) (l : Fin 4) :
    (s.launch edge g).lane l = { s.lane l with queue := (s.lane l).queue ++ s.launchJobs g l } := by
  have same : ((s.setGroup g ((s.group g).launched edge)).setAccount g
      ⟨(s.group g).records.length, false, false⟩).recordLane = s.recordLane := recordLane_of_blocks rfl rfl
  refine (lane_appendRecords _ g 0 _ l).trans ?_
  rw [State.jobsOn, same]
  rfl

theorem group_launch (s : State) (edge : Option LaunchEdge) (g g' : Fin 8) :
    (s.launch edge g).group g' = if g = g' then (s.group g).launched edge else s.group g' := by
  obtain ⟨lanes, h⟩ := launch_eq s edge g
  rw [h]
  exact State.group_setGroup s g g' _

/-- Settles O21: the group and its account, the tail of each lane, and the lane of each form. -/
theorem launchAppendsRecords : Obligations.LaunchAppendsRecords := by
  intro s edge g
  refine ⟨(group_launch s edge g g).trans (if_pos rfl), (account_launch s edge g g).trans (if_pos rfl),
    fun g' other => ⟨(group_launch s edge g g').trans (if_neg (Ne.symm other)),
      (account_launch s edge g g').trans (if_neg (Ne.symm other))⟩,
    lane_launch s edge g, fun _ _ _ _ _ _ _ _ => ⟨rfl, rfl, rfl, rfl⟩, fun _ _ => rfl, fun _ _ => rfl, ?frame⟩
  case frame =>
    obtain ⟨lanes, h⟩ := launch_eq s edge g
    rw [h]
    exact ⟨rfl, rfl, rfl, rfl, rfl, rfl, rfl, rfl, rfl, rfl, rfl⟩

/-! ## The end of a record (R84, R85) -/

/-- A record's end counted, before the group completes (R84). -/
def State.counted (s : State) (g : Fin 8) (index : Nat) (e : RecordEnd) : State :=
  (s.setGroup g ((s.group g).counted index e)).setAccount g (s.account g).oneLess

theorem recordEnd_last {s : State} {g : Fin 8} (h : (s.account g).pending = 1) (index : Nat) (e : RecordEnd) :
    s.recordEnd g index e = (s.counted g index e).complete g := by
  rw [State.recordEnd, if_neg (by omega), if_pos h]
  rfl

theorem recordEnd_more {s : State} {g : Fin 8} (h : 1 < (s.account g).pending) (index : Nat) (e : RecordEnd) :
    s.recordEnd g index e = s.counted g index e := by
  rw [State.recordEnd, if_neg (by omega), if_neg (by omega)]
  rfl

/-- Settles O23: the end by what is left pending, the counts by how the record ends. -/
theorem recordEndCounts : Obligations.RecordEndCounts := by
  intro s g index n e pending
  have less : { s.account g with pending := n } = (s.account g).oneLess := by
    rw [Account.oneLess, pending, Nat.add_sub_cancel]
  simp only [less]
  refine ⟨fun more => recordEnd_more (by omega) index e, fun last => recordEnd_last (by omega) index e, ?_, ?_, ?_, ?_⟩
  · rintro rfl; rfl
  · rintro rfl; rfl
  · rintro rfl; rfl
  · rintro r item rfl
    refine ⟨fun first => ?_, fun later => ?_⟩
    · simp only [GroupEntry.counted, first, Option.getD_none]
    · obtain ⟨f, kept⟩ := Option.ne_none_iff_exists'.1 later
      simp only [GroupEntry.counted, kept, Option.getD_some]

/-! ## The outcome and the completion (R88 to R90) -/

/-- A group as the completion of its launch leaves it (R88, R89). -/
def State.completed (s : State) (g : Fin 8) : GroupEntry :=
  { s.group g with
    lastOutcome := launchOutcome (s.account g) (s.group g)
    state := if (s.armEntry g).isSome then .armed else .ready }

theorem group_complete_self (s : State) (g : Fin 8) : (s.complete g).group g = s.completed g :=
  State.group_setGroup_self s g _

/-- A completed group leaves the window sets of both lines (R89). -/
theorem line_complete (s : State) (g : Fin 8) (l : Line) : (s.complete g).line l = (s.line l).without g := by
  cases l <;> rfl

/-- The completion raises N.DONE with the group's new fields (R90). -/
theorem hpt_complete (s : State) (g : Fin 8) :
    (s.complete g).hpt = (s.notify 0x01#8 (natByte g.val :: (s.completed g).launchBytes) (s.account g).cut).hpt := rfl

theorem armEntry_isSome_iff (s : State) (g : Fin 8) : (s.armEntry g).isSome = true ↔ ∃ a ∈ s.sau.arm, a.group = g := by
  simp [State.armEntry]

theorem launchOutcome_aborted {a : Account} (h : a.abortTaken = true) (x : GroupEntry) : launchOutcome a x = .aborted :=
  if_pos h

theorem launchOutcome_cut {a : Account} (abort : a.abortTaken = false) (h : a.cut = true) (x : GroupEntry) :
    launchOutcome a x = .cut := by
  simp [launchOutcome, abort, h]

theorem launchOutcome_ended {a : Account} (abort : a.abortTaken = false) (cut : a.cut = false) (x : GroupEntry) :
    launchOutcome a x = if x.done = x.records.length then .applied else .torn := by
  simp [launchOutcome, abort, cut]

/-- Settles O24: the outcome line by line, then the completion block by block. -/
theorem completionMovesGroup : Obligations.CompletionMovesGroup := by
  refine ⟨fun a x => ⟨fun abort => launchOutcome_aborted abort x, fun abort cut => launchOutcome_cut abort cut x,
    fun abort cut all => (launchOutcome_ended abort cut x).trans (if_pos all),
    fun abort cut rest => (launchOutcome_ended abort cut x).trans (if_neg rest)⟩, fun s g => ?completion⟩
  case completion =>
    simp only [← armEntry_isSome_iff]
    refine ⟨group_complete_self s g, fun g' other => group_complete_other s (Ne.symm other), rfl, rfl, rfl, rfl, rfl, rfl,
      line_complete s g, hpt_complete s g, fun h n => ⟨fun room => ?_, fun full => ?_⟩⟩
    · exact (join_zero h n).trans (if_pos room)
    · exact (join_zero h n).trans (if_neg (Nat.not_lt.2 full))

end Sys2Proof.Machine
end

section
/-! SUPPORT. GROUP.ABORT: what leaves the lanes, how it is counted, and what the reply and the notice say (R92 to R94). -/

namespace Sys2Proof.Machine

/-! ## Several records withdrawn (R84) -/

/-- The reports of `n` records withdrawn, before the group completes. -/
def State.withdrawMany (s : State) (g : Fin 8) (n : Nat) : State :=
  (s.setGroup g { s.group g with withdrawn := (s.group g).withdrawn + n }).setAccount g
    { s.account g with pending := (s.account g).pending - n }

theorem withdrawMany_zero (s : State) (g : Fin 8) : s.withdrawMany g 0 = s :=
  (congrArg (State.setAccount · g (s.account g)) (setGroup_group s g)).trans (setAccount_account s g)

theorem withdrawMany_succ (s : State) (g : Fin 8) (n : Nat) :
    (s.withdrawOne g).withdrawMany g n = s.withdrawMany g (n + 1) := by
  have group : (s.withdrawOne g).group g = (s.group g).oneWithdrawn := (group_withdrawOne s g g).trans (if_pos rfl)
  have account : (s.withdrawOne g).account g = (s.account g).oneLess := (account_withdrawOne s g g).trans (if_pos rfl)
  rw [State.withdrawMany, group, account]
  simp only [State.withdrawOne, State.setGroup, State.setAccount, State.withdrawMany, GroupEntry.oneWithdrawn,
    Account.oneLess, Vector.set_set, Nat.add_assoc, Nat.sub_sub, Nat.add_comm 1]

/-- The reports are counted, and those of the last pending records complete the group (R84, R89). -/
theorem recordsWithdrawn_eq {s : State} {g : Fin 8} {n : Nat} (enough : n ≤ (s.account g).pending) :
    s.recordsWithdrawn g n =
      if n = (s.account g).pending ∧ n ≠ 0 then (s.withdrawMany g n).complete g else s.withdrawMany g n := by
  induction n generalizing s with
  | zero => simp [State.recordsWithdrawn, withdrawMany_zero]
  | succ n ih =>
    match pending : (s.account g).pending with
    | 0 => omega
    | 1 =>
      obtain rfl : n = 0 := by omega
      exact withdrawn_last 0 pending
    | p + 2 =>
      have left : ((s.withdrawOne g).account g).pending = p + 1 := by
        rw [account_withdrawOne, if_pos rfl, Account.oneLess, pending]
        rfl
      have last : (n = p + 1 ∧ n ≠ 0) = (n + 1 = p + 2 ∧ n + 1 ≠ 0) := by
        rw [eq_iff_iff]
        omega
      rw [State.recordsWithdrawn, withdrawn_more 0 pending, ih (by omega), withdrawMany_succ, left]
      simp only [last]

theorem group_withdrawMany (s : State) (g : Fin 8) (n : Nat) :
    (s.withdrawMany g n).group g = { s.group g with withdrawn := (s.group g).withdrawn + n } :=
  State.group_setGroup_self s g _

theorem account_withdrawMany (s : State) (g : Fin 8) (n : Nat) :
    (s.withdrawMany g n).account g = { s.account g with pending := (s.account g).pending - n } :=
  State.account_setAccount_self _ g _

/-! ## What a completion reads of the state -/

theorem armEntry_of_sau {s t : State} (h : t.sau = s.sau) (g : Fin 8) : t.armEntry g = s.armEntry g := by
  rw [State.armEntry, h, State.armEntry]

/-- A notice's place depends on the Host Port and on the two counters alone. -/
theorem notify_hpt_congr {s t : State} (hpt : s.hpt = t.hpt) (raised : s.raised = t.raised) (fresh : s.fresh = t.fresh)
    (code : Byte) (payload : List Byte) (cut : Bool) :
    (s.notify code payload cut).hpt = (t.notify code payload cut).hpt := by
  simp only [State.notify, hpt, raised, fresh]

/-! ## What the reports of one group leave alone -/

/-- No other group or account changes, nor the arm list, the lanes, the targets and the loops. -/
structure State.ReportsOf (g : Fin 8) (s t : State) : Prop where
  groups : ∀ g', g' ≠ g → t.group g' = s.group g' ∧ t.account g' = s.account g'
  arm : t.sau.arm = s.sau.arm
  lanes : t.lanes = s.lanes
  targets : t.tgt = s.tgt
  loops : t.tlu = s.tlu

theorem State.ReportsOf.refl (g : Fin 8) (s : State) : s.ReportsOf g s := ⟨fun _ _ => ⟨rfl, rfl⟩, rfl, rfl, rfl, rfl⟩

theorem State.ReportsOf.trans {g : Fin 8} {s t u : State} (h : s.ReportsOf g t) (h' : t.ReportsOf g u) :
    s.ReportsOf g u where
  groups g' other :=
    ⟨(h'.groups g' other).1.trans (h.groups g' other).1, (h'.groups g' other).2.trans (h.groups g' other).2⟩
  arm := h'.arm.trans h.arm
  lanes := h'.lanes.trans h.lanes
  targets := h'.targets.trans h.targets
  loops := h'.loops.trans h.loops

theorem reportsOf_complete (s : State) (g : Fin 8) : s.ReportsOf g (s.complete g) where
  groups _ other := ⟨group_complete_other s (Ne.symm other), rfl⟩
  arm := rfl
  lanes := rfl
  targets := rfl
  loops := rfl

theorem reportsOf_counted (s : State) (g : Fin 8) (i : Nat) (e : RecordEnd) : s.ReportsOf g (s.counted g i e) where
  groups g' other :=
    ⟨(State.group_setGroup s g g' _).trans (if_neg (Ne.symm other)),
      (State.account_setAccount _ g g' _).trans (if_neg (Ne.symm other))⟩
  arm := rfl
  lanes := rfl
  targets := rfl
  loops := rfl

theorem reportsOf_recordEnd (s : State) (g : Fin 8) (i : Nat) (e : RecordEnd) : s.ReportsOf g (s.recordEnd g i e) := by
  match pending : (s.account g).pending with
  | 0 =>
    rw [State.recordEnd, if_pos pending]
    exact .refl g s
  | 1 =>
    rw [recordEnd_last pending]
    exact (reportsOf_counted s g i e).trans (reportsOf_complete _ g)
  | p + 2 =>
    rw [recordEnd_more (by omega)]
    exact reportsOf_counted s g i e

theorem reportsOf_recordsWithdrawn (s : State) (g : Fin 8) (n : Nat) : s.ReportsOf g (s.recordsWithdrawn g n) := by
  induction n generalizing s with
  | zero => exact .refl g s
  | succ n ih => exact (reportsOf_recordEnd s g 0 .withdrawn).trans (ih _)

/-! ## The withdrawal and the reply (R92, R94) -/

theorem dropQueued_eq (s : State) (p : Job → Bool) : ∃ x, s.dropQueued p = { s with lanes := x } := by
  unfold State.dropQueued
  refine foldl_keeps (P := fun t => ∃ x, t = { s with lanes := x }) (fun t l => ?_) _ s ⟨s.lanes, rfl⟩
  rintro ⟨x, rfl⟩
  exact ⟨_, rfl⟩

/-- The withdrawal changes the lanes alone. -/
theorem abortLanes_eq (s : State) (g : Fin 8) : ∃ x, s.abortLanes g = { s with lanes := x } := by
  unfold State.abortLanes
  refine foldl_keeps (P := fun t => ∃ x, t = { s with lanes := x }) (fun t l => ?_) _ _ (dropQueued_eq s _)
  rintro ⟨x, rfl⟩
  exact ⟨_, rfl⟩

/-- The Host Port with the reply of an abort: how many records it withdraws, and how many of the group stay in flight in
`t` (R94). -/
def State.abortReply (s t : State) (tag : Byte) (g : Fin 8) : Hpt :=
  s.hpt.answer tag ([Status.ok.byte] ++ natHalf (s.abortCount g) ++ [natByte (t.flightCount (Job.ofGroup g))]) false

/-- An abort up to its reply: nothing is counted yet. -/
def State.abortBegun (s : State) (tag : Byte) (g : Fin 8) : State :=
  let t := (s.setAccount g { s.account g with abortTaken := true }).abortLanes g
  t.answer tag .ok (natHalf (s.abortCount g) ++ [natByte (t.flightCount (Job.ofGroup g))])

theorem abort_eq (s : State) (tag : Byte) (g : Fin 8) :
    s.abort tag g = (s.abortBegun tag g).recordsWithdrawn g (s.abortCount g) := rfl

/-- Beside the account, what an abort does before it counts is done to the lanes and to the replies. -/
theorem abortBegun_eq (s : State) (tag : Byte) (g : Fin 8) :
    ∃ x, s.abortBegun tag g =
      { s.setAccount g { s.account g with abortTaken := true } with
        lanes := x, hpt := s.abortReply (s.abortBegun tag g) tag g } := by
  obtain ⟨x, h⟩ := abortLanes_eq (s.setAccount g { s.account g with abortTaken := true }) g
  have hpt : (s.abortBegun tag g).hpt = s.abortReply (s.abortBegun tag g) tag g := by
    rw [State.abortBegun, State.answer, h]
    rfl
  refine ⟨x, ?_⟩
  rw [← hpt, State.abortBegun, State.answer, h]

theorem account_abortBegun (s : State) (tag : Byte) (g : Fin 8) :
    (s.abortBegun tag g).account g = { s.account g with abortTaken := true } := by
  obtain ⟨x, h⟩ := abortBegun_eq s tag g
  rw [h]
  exact State.account_setAccount_self s g _

/-- The group entries, the arm list, the targets and the loops, the other accounts and the counters stand as before. -/
theorem abortBegun_keeps (s : State) (tag : Byte) (g : Fin 8) :
    let t := s.abortBegun tag g
    (t.gtb = s.gtb ∧ t.sau = s.sau ∧ t.tgt = s.tgt ∧ t.tlu = s.tlu ∧ t.fresh = s.fresh ∧ t.raised = s.raised) ∧
    ∀ g', g' ≠ g → t.account g' = s.account g' := by
  obtain ⟨x, h⟩ := abortBegun_eq s tag g
  rw [h]
  exact ⟨⟨rfl, rfl, rfl, rfl, rfl, rfl⟩,
    fun g' other => (State.account_setAccount s g g' _).trans (if_neg (Ne.symm other))⟩

theorem lane_abortBegun (s : State) (tag : Byte) (g : Fin 8) (l : Fin 4) :
    (s.abortBegun tag g).lane l = (s.lane l).aborted g :=
  lane_abortLanes (s.setAccount g { s.account g with abortTaken := true }) g l

/-! ## The whole abort -/

theorem lanes_abort (s : State) (tag : Byte) (g : Fin 8) : (s.abort tag g).lanes = (s.abortBegun tag g).lanes := by
  rw [abort_eq]
  exact (reportsOf_recordsWithdrawn ..).lanes

theorem abortReply_of_lanes {s t u : State} (h : t.lanes = u.lanes) (tag : Byte) (g : Fin 8) :
    s.abortReply t tag g = s.abortReply u tag g := by
  simp only [State.abortReply, State.flightCount, State.lane, h]

theorem hpt_abortBegun (s : State) (tag : Byte) (g : Fin 8) :
    (s.abortBegun tag g).hpt = s.abortReply (s.abort tag g) tag g := by
  obtain ⟨x, h⟩ := abortBegun_eq s tag g
  exact (congrArg State.hpt h).trans (abortReply_of_lanes (lanes_abort s tag g).symm tag g)

/-- What the abort does to a job in flight, by whose it is and by the state of its lane (R92, R93). -/
theorem abortFlight_eq (g : Fin 8) (f : Flight) :
    abortFlight g f =
      if f.job.ofGroup g then (if f.part = .hold then none else some { f with marked := true }) else some f := by
  by_cases group : f.job.ofGroup g = true
  · by_cases hold : f.part = .hold <;> simp [abortFlight, Flight.endsAtAbort, group, hold]
  · simp [abortFlight, Flight.endsAtAbort, group]

theorem lane_abort (s : State) (tag : Byte) (g : Fin 8) (l : Fin 4) :
    (s.abort tag g).lane l = (s.lane l).aborted g := by
  rw [State.lane, lanes_abort]
  exact lane_abortBegun s tag g l

/-- The withdrawn records are counted, and the last pending ones complete the group (R89, R92). -/
theorem abort_counted {s : State} {g : Fin 8} (tag : Byte) (enough : s.abortCount g ≤ (s.account g).pending) :
    s.abort tag g =
      if s.abortCount g = (s.account g).pending ∧ s.abortCount g ≠ 0 then
        ((s.abortBegun tag g).withdrawMany g (s.abortCount g)).complete g
      else (s.abortBegun tag g).withdrawMany g (s.abortCount g) := by
  have pending : ((s.abortBegun tag g).account g).pending = (s.account g).pending := by rw [account_abortBegun]
  rw [abort_eq, recordsWithdrawn_eq (by rwa [pending]), pending]

/-- Settles O22: the request by the state of the group, the lanes by the withdrawal, and the counts by whether the records
withdrawn are the last pending. -/
theorem groupAbortWithdraws : Obligations.GroupAbortWithdraws := by
  intro s g tag t n answered
  obtain ⟨⟨gtb, sau, tgt, tlu, fresh, raised⟩, accounts⟩ := abortBegun_keeps s tag g
  have reports : (s.abortBegun tag g).ReportsOf g t := reportsOf_recordsWithdrawn _ g n
  have groups (g' : Fin 8) : (s.abortBegun tag g).group g' = s.group g' := by rw [State.group, gtb]; rfl
  refine ⟨fun h ha => ⟨fun hst => ?wrong, fun hst => ?taken⟩, fun l => ?lanes, fun g' other => ?others,
    reports.arm.trans (congrArg Sau.arm sau), reports.targets.trans tgt, reports.loops.trans tlu, fun enough => ?counts⟩
  case wrong =>
    refine taking_answered ha ?_
    rw [ownGroupAbort, inRange_natByte_8]
    simp [hst]
  case taken =>
    refine (taking_request ha 0x1A#8 _).trans ?_
    rw [ownGroupAbort, inRange_natByte_8]
    simp only [group_accepted, hst, ne_eq, not_true, if_false]
  case lanes =>
    rw [lane_abort, Lane.aborted]
    exact ⟨rfl, rfl, Option.bind_congr fun f _ => abortFlight_eq g f⟩
  case others =>
    exact ⟨(reports.groups g' other).1.trans (groups g'), (reports.groups g' other).2.trans (accounts g' other)⟩
  case counts =>
    let v := (s.abortBegun tag g).withdrawMany g n
    have group : v.group g = { s.group g with withdrawn := (s.group g).withdrawn + n } := by
      rw [group_withdrawMany, groups]
    have account : v.account g = ⟨(s.account g).pending - n, true, (s.account g).cut⟩ := by
      rw [account_withdrawMany, account_abortBegun]
    have hpt : v.hpt = answered := hpt_abortBegun s tag g
    by_cases last : n = (s.account g).pending ∧ n ≠ 0
    · have completes : t = v.complete g := (abort_counted tag enough).trans (if_pos last)
      have armed : v.armEntry g = s.armEntry g := armEntry_of_sau sau g
      rw [completes, account_complete, group_complete_self]
      refine ⟨account, ?_, ?_, fun h => absurd last.1 h.ne, fun _ _ => ⟨fun _ => ?_, ?_, ?_⟩⟩
      · rw [State.completed, group]
      · rw [State.completed, group]
      · rw [hpt_complete, account]
        exact notify_hpt_congr (s := v) (t := { s with hpt := answered }) hpt raised fresh ..
      · exact launchOutcome_aborted (by rw [account]) _
      · rw [State.completed, armed]
    · have counts : t = v := (abort_counted tag enough).trans (if_neg last)
      rw [counts, group]
      exact ⟨account, rfl, rfl, fun _ => ⟨rfl, hpt⟩, fun all any => absurd ⟨all, any⟩ last⟩

end Sys2Proof.Machine
end

section
/-! SUPPORT. LOOP.START, LOOP.STOP and PART.RESET LOOPS, and the follower lookup (R107, R108, R110, R119, R127). -/

namespace Sys2Proof.Machine

/-! ## The follower lookup (R119) -/

/-- With points of rising keys, the one with the greatest key not above `v` gives the value. -/
theorem lookupFrom_greatest {p : Val × Val} {v : Val} {l : List (Val × Val)}
    (rising : (p :: l).Pairwise fun p q => p.1.toNat < q.1.toNat) {x : Val × Val} (mem : x ∈ p :: l)
    (le : x.1.toNat ≤ v.toNat) (greatest : ∀ q ∈ p :: l, q.1.toNat ≤ v.toNat → q.1.toNat ≤ x.1.toNat) :
    lookupFrom p v l = x.2 := by
  induction l generalizing p with
  | nil => rw [List.mem_singleton.1 mem]; rfl
  | cons q l ih =>
    have first : p.1.toNat < q.1.toNat := List.rel_of_pairwise_cons rising (List.mem_cons_self ..)
    rw [lookupFrom]
    split_ifs with hq
    · have apart : x ≠ p := fun h => by
        have := greatest q (by simp) hq
        rw [h] at this
        omega
      exact ih (List.pairwise_cons.1 rising).2 ((List.mem_cons.1 mem).resolve_left apart)
        fun y hy => greatest y (List.mem_cons_of_mem p hy)
    · have apart : x ≠ q := fun h => hq (h ▸ le)
      have skip : (p :: l).Sublist (p :: q :: l) := (List.sublist_cons_self q l).cons_cons p
      refine ih (rising.sublist skip) ?_ fun y hy => greatest y (skip.subset hy)
      simpa [apart] using mem

/-- With every key above `v` the first point gives the value. -/
theorem lookupFrom_above {p : Val × Val} {v : Val} {l : List (Val × Val)} (above : ∀ q ∈ l, v.toNat < q.1.toNat) :
    lookupFrom p v l = p.2 := by
  induction l with
  | nil => rfl
  | cons q l ih =>
    rw [lookupFrom, if_neg (Nat.not_le.2 (above q (List.mem_cons_self ..)))]
    exact ih fun y hy => above y (List.mem_cons_of_mem q hy)

/-- Settles O42: by the point that the lookup ends at. -/
theorem followerLookup : Obligations.FollowerLookup := by
  intro f v rising
  have lookup {p : Val × Val} {rest : List (Val × Val)} (h : f.points = p :: rest) : f.lookup v = lookupFrom p v rest := by
    rw [Follower.lookup, h]
  constructor
  · intro x mem le greatest
    obtain ⟨p, rest, h⟩ := List.exists_cons_of_ne_nil (List.ne_nil_of_mem mem)
    rw [lookup h]
    rw [h] at rising mem greatest
    exact lookupFrom_greatest rising mem le greatest
  · intro p rest h above
    rw [lookup h]
    rw [h] at above
    exact lookupFrom_above fun q hq => above q (List.mem_cons_of_mem p hq)

/-! ## Starting (R107, R108) -/

@[simp] theorem loop_accepted (s : State) (h : ReqHead) (c : Byte) (n : Fin 4) : (s.accepted h c).loop n = s.loop n := rfl

@[simp] theorem startRefusal_accepted (s : State) (h : ReqHead) (c : Byte) (n : Fin 4) :
    (s.accepted h c).startRefusal n = s.startRefusal n := rfl

theorem targetsEnabled_iff (c : LoopCfg) (tgt : Table TargetEntry 16) :
    c.targetsEnabled tgt = true ↔ ∀ t ∈ c.targets, tgt[t].cfg.enabled = true := List.all_eq_true

theorem targetsFaulted_iff (c : LoopCfg) (tgt : Table TargetEntry 16) :
    c.targetsFaulted tgt = true ↔ ∃ t ∈ c.targets, tgt[t].fault ≠ none := by
  simp [LoopCfg.targetsFaulted, Option.isSome_iff_ne_none]

theorem startRefusal_running {s : State} {n : Fin 4} (h : (s.loop n).state.running = true) :
    s.startRefusal n = some .wrongState := if_pos h

/-- The checks after the loop's state and its configuration, in their order (R107). -/
theorem startRefusal_rest {s : State} {n : Fin 4} (rest : (s.loop n).state.running = false)
    (configured : (s.loop n).configured = true) :
    s.startRefusal n =
      if !((s.loop n).cfg.targetsEnabled s.tgt && (s.loop n).cfg.fits s.tgt) then some .badArg
      else if (s.loop n).cfg.targetsFaulted s.tgt then some .targetFaulted
      else if (s.loop n).jobsOut ≠ 0 then some .laneBusy
      else none := by
  simp [State.startRefusal, rest, configured]

/-- With sound targets only jobs still out refuse a start (R107). -/
theorem startRefusal_sound {s : State} {n : Fin 4} (rest : (s.loop n).state.running = false)
    (configured : (s.loop n).configured = true)
    (enabled : ∀ t ∈ (s.loop n).cfg.targets, (s.target t).cfg.enabled = true) (fits : (s.loop n).cfg.fits s.tgt = true)
    (sound : ∀ t ∈ (s.loop n).cfg.targets, (s.target t).fault = none) :
    s.startRefusal n = if (s.loop n).jobsOut ≠ 0 then some .laneBusy else none := by
  have faulted := mt (targetsFaulted_iff (s.loop n).cfg s.tgt).1 fun ⟨t, ht, hf⟩ => hf (sound t ht)
  have enabled := (targetsEnabled_iff (s.loop n).cfg s.tgt).2 enabled
  simp only [startRefusal_rest rest configured, enabled, fits, faulted, Bool.and_self, Bool.not_true, Bool.false_eq_true,
    if_false]

/-- A loop without a follower starts with one seed (R108). -/
theorem startLoop_alone {s : State} {n : Fin 4} (alone : (s.loop n).cfg.follower = none) :
    s.startLoop n =
      (s.setLoop n { s.loop n with
        output := (s.loop n).cfg.initialOutput, edgeCount := 0, lastMeasure := none, stale := false, skipSeen := false
        state := .tracking, cycle := .output, jobsOut := 1 }).appendJob (s.target (s.loop n).cfg.outTarget).cfg.lane
        (.loop n .outputSeed (s.loop n).cfg.outTarget (s.loop n).cfg.outReg (s.loop n).cfg.initialOutput) := by
  simp only [State.startLoop, LoopEntry.started, alone]
  rfl

/-- One with a follower starts with two (R108). -/
theorem startLoop_follower {s : State} {n : Fin 4} {f : Follower} (follows : (s.loop n).cfg.follower = some f) :
    s.startLoop n =
      ((s.setLoop n { s.loop n with
        output := (s.loop n).cfg.initialOutput, lastFollower := f.lookup (s.loop n).cfg.initialOutput, edgeCount := 0
        lastMeasure := none, stale := false, skipSeen := false, state := .tracking, cycle := .output
        jobsOut := 2 }).appendJob (s.target (s.loop n).cfg.outTarget).cfg.lane
        (.loop n .outputSeed (s.loop n).cfg.outTarget (s.loop n).cfg.outReg (s.loop n).cfg.initialOutput)).appendJob
        (s.target f.target).cfg.lane
        (.loop n .followerSeed f.target f.reg (f.lookup (s.loop n).cfg.initialOutput)) := by
  simp only [State.startLoop, LoopEntry.started, follows]
  rfl

/-- Settles O40: the request by its refusal, the refusal check by check, the start by the follower. -/
theorem loopStartSeeds : Obligations.LoopStartSeeds := by
  intro s n x
  refine ⟨fun h ha => ⟨fun st hst => ?refused, fun hst => ?started⟩, startRefusal_running, fun rest =>
    ⟨fun unset => ?unset, fun set => ⟨fun bad => ?range, fun enabled fits =>
      ⟨fun faulted => ?faulted, fun sound => ?sound⟩⟩⟩,
    fun alone => startLoop_alone alone, fun f follows => startLoop_follower follows⟩
  case refused =>
    refine taking_answered ha ?_
    rw [ownLoopStart, inRange_natByte_4]
    simp [hst]
  case started =>
    refine (taking_request ha 0x41#8 _).trans ?_
    rw [ownLoopStart, inRange_natByte_4]
    simp [hst]
  case unset => simp [State.startRefusal, x, rest, unset]
  case range =>
    have passed : ¬ (x.cfg.targetsEnabled s.tgt = true ∧ x.cfg.fits s.tgt = true) := fun ⟨enabled, fits⟩ => by
      rcases bad with ⟨t, ht, hd⟩ | unfit
      · exact Bool.false_ne_true (hd.symm.trans ((targetsEnabled_iff _ _).1 enabled t ht))
      · exact Bool.false_ne_true (unfit.symm.trans fits)
    rw [startRefusal_rest rest set, if_pos]
    rwa [Bool.not_eq_true', ← Bool.not_eq_true, Bool.and_eq_true]
  case faulted =>
    have faulted := (targetsFaulted_iff x.cfg s.tgt).2 faulted
    have enabled := (targetsEnabled_iff x.cfg s.tgt).2 enabled
    simp [startRefusal_rest rest set, x, enabled, fits, faulted]
  case sound =>
    have sound := startRefusal_sound rest set enabled fits sound
    exact ⟨fun out => sound.trans (if_pos out), fun zero => sound.trans (if_neg (not_not.2 zero))⟩

/-! ## Stopping (R110, R127) -/

@[simp] theorem flightCount_accepted (s : State) (h : ReqHead) (c : Byte) (p : Job → Bool) :
    (s.accepted h c).flightCount p = s.flightCount p := rfl

@[simp] theorem queuedCount_accepted (s : State) (h : ReqHead) (c : Byte) (p : Job → Bool) :
    (s.accepted h c).queuedCount p = s.queuedCount p := rfl

/-- A change of the Host Port alone is no matter to a loop that stops. -/
theorem dropQueued_withHpt (s : State) (x : Hpt) (p : Job → Bool) :
    State.dropQueued { s with hpt := x } p = { s.dropQueued p with hpt := x } := by
  unfold State.dropQueued
  induction upTo 4 generalizing s with
  | nil => rfl
  | cons l lanes ih => exact ih (s.setLane l _)

theorem stopLoop_withHpt (s : State) (x : Hpt) (n : Fin 4) :
    State.stopLoop { s with hpt := x } n = { s.stopLoop n with hpt := x } := by
  rw [stopLoop_eq, stopLoop_eq, dropQueued_withHpt]
  rfl

theorem loopReset_withHpt (s : State) (x : Hpt) (n : Fin 4) :
    State.loopReset { s with hpt := x } n = { s.loopReset n with hpt := x } := by
  rw [State.loopReset, stopLoop_withHpt]
  rfl

theorem loopResets_withHpt (s : State) (x : Hpt) (loops : List (Fin 4)) :
    loops.foldl State.loopReset { s with hpt := x } = { loops.foldl State.loopReset s with hpt := x } := by
  induction loops generalizing s with
  | nil => rfl
  | cons n loops ih => simp only [List.foldl_cons, loopReset_withHpt, ih]

/-- What a loop that stops touches: the lanes and the loops. -/
theorem stopLoop_withLanes (s : State) (n : Fin 4) : ∃ x y, s.stopLoop n = s.withLanes x y := by
  obtain ⟨x, h⟩ := dropQueued_eq s (Job.ofLoop n)
  exact ⟨x, _, by rw [stopLoop_eq, h]; rfl⟩

theorem loopResets_withLanes (s : State) (loops : List (Fin 4)) :
    ∃ x y, loops.foldl State.loopReset s = s.withLanes x y := by
  refine foldl_keeps (P := fun t => ∃ x y, t = s.withLanes x y) (fun t n => ?_) loops s ⟨_, _, rfl⟩
  rintro ⟨x, y, rfl⟩
  obtain ⟨x', y', h⟩ := stopLoop_withLanes (s.withLanes x y) n
  exact ⟨_, _, by rw [State.loopReset, h]; rfl⟩

theorem lane_stopLoop (s : State) (n l : Fin 4) :
    (s.stopLoop n).lane l = { s.lane l with queue := (s.lane l).queue.filter fun j => !j.ofLoop n } := by
  rw [stopLoop_eq, State.lane_setLoop, lane_dropQueued]

theorem loop_stopLoop (s : State) (n m : Fin 4) :
    (s.stopLoop n).loop m =
      if n = m then { (s.loop n).left .stopped (s.queuedCount (Job.ofLoop n)) with edgeCount := 0 } else s.loop m := by
  rw [stopLoop_eq, State.loop_setLoop, loop_dropQueued]

/-- A loop that stops has no job queued, and another as many as before. -/
theorem queuedCount_stopLoop (s : State) (n m : Fin 4) :
    (s.stopLoop n).queuedCount (Job.ofLoop m) = if n = m then 0 else s.queuedCount (Job.ofLoop m) := by
  have queue (l : Fin 4) : ((s.stopLoop n).lane l).queue.countP (Job.ofLoop m) =
      (s.lane l).queue.countP fun j => j.ofLoop m && !j.ofLoop n := by
    rw [lane_stopLoop, List.countP_filter]
  simp only [State.queuedCount, queue]
  split_ifs with h
  · simp [h, upTo]
  · refine congrArg List.sum (List.map_congr_left fun l _ => List.countP_congr fun j _ => ?_)
    simp only [Bool.and_eq_true, Bool.not_eq_true', and_iff_left_iff_imp]
    exact ofLoop_other (Ne.symm h)

/-- A loop under PART.RESET LOOPS, with `k` jobs queued (R127). -/
def LoopEntry.afterReset (x : LoopEntry) (k : Nat) : LoopEntry :=
  { x.left .stopped k with edgeCount := 0, skipSeen := false }

/-- The loops stop each by itself (R127). -/
theorem loop_loopResets (s : State) (n : Fin 4) :
    ((upTo 4).foldl State.loopReset s).loop n = (s.loop n).afterReset (s.queuedCount (Job.ofLoop n)) := by
  have one (t : State) (i j : Fin 4) :
      ((t.loopReset i).loop j, (t.loopReset i).queuedCount (Job.ofLoop j)) =
        if i = j then ((t.loop i).afterReset (t.queuedCount (Job.ofLoop i)), 0)
        else (t.loop j, t.queuedCount (Job.ofLoop j)) := by
    have queued : (t.loopReset i).queuedCount (Job.ofLoop j) = (t.stopLoop i).queuedCount (Job.ofLoop j) := rfl
    rw [queued, queuedCount_stopLoop, State.loopReset, State.loop_setLoop, loop_stopLoop, loop_stopLoop, if_pos rfl]
    split_ifs <;> rfl
  have both := foldl_upTo (get := fun t j => (t.loop j, t.queuedCount (Job.ofLoop j)))
    (f := fun _ x => (x.1.afterReset x.2, 0)) one s n
  exact (Prod.mk.inj both).1

theorem lane_loopResets (s : State) (loops : List (Fin 4)) (l : Fin 4) :
    (loops.foldl State.loopReset s).lane l =
      { s.lane l with queue := (s.lane l).queue.filter fun j => !loops.any fun n => j.ofLoop n } := by
  induction loops generalizing s with
  | nil => simp
  | cons n loops ih =>
    have first : (s.loopReset n).lane l = (s.stopLoop n).lane l := rfl
    rw [List.foldl_cons, ih, first, lane_stopLoop, List.filter_filter]
    simp only [List.any_cons, Bool.not_or, Bool.and_comm]

theorem any_ofLoop (j : Job) : ((upTo 4).any fun n => j.ofLoop n) = j.ofTlu := by
  cases j with
  | loop n k t reg v => exact List.any_eq_true.2 ⟨n, List.mem_finRange n, beq_self_eq_true n⟩
  | record g i r => rfl
  | read tag t reg => rfl

/-- Settles O41: a stop by its withdrawal, a reset as the stop of every loop. -/
theorem loopsStop : Obligations.LoopsStop := by
  refine fun s => ⟨fun h n ha => ⟨fun hst => ?still, fun hst => ?stopped⟩, fun n => ?stop, fun h ha => ?reset⟩
  case still =>
    refine taking_answered ha ?_
    rw [ownLoopStop, inRange_natByte_4]
    simp [hst]
  case stopped =>
    refine request_replied ha 0x42#8 (fun t => t.stopLoop n) .ok _ ?_ (stopLoop_withHpt s _ n) ?_
    · rw [ownLoopStop, inRange_natByte_4]
      simp [hst]
    · obtain ⟨x, y, h⟩ := stopLoop_withLanes s n
      rw [h]
      rfl
  case stop =>
    obtain ⟨x, y, h⟩ := stopLoop_withLanes s n
    refine ⟨?_, fun m other => ?_, lane_stopLoop s n, ?_⟩
    · rw [loop_stopLoop, if_pos rfl]
      rfl
    · rw [loop_stopLoop, if_neg (Ne.symm other)]
    · rw [h]
      exact ⟨rfl, rfl, rfl, rfl, rfl, rfl⟩
  case reset =>
    obtain ⟨x, y, h⟩ := loopResets_withLanes s (upTo 4)
    refine ⟨(upTo 4).foldl State.loopReset s, ?_, by rw [h]; rfl, loop_loopResets s, fun l => ?_, ?_⟩
    · exact request_replied ha 0x72#8 (fun t => (upTo 4).foldl State.loopReset t) .ok [] rfl
        (loopResets_withHpt s _ _) (by rw [h]; rfl)
    · rw [lane_loopResets]
      simp only [any_ofLoop]
      refine congrArg (fun q => { s.lane l with queue := q }) (List.filter_congr fun j _ => ?_)
      cases j <;> rfl
    · rw [h]
      exact ⟨rfl, rfl, rfl, rfl, rfl⟩

end Sys2Proof.Machine
end

section
/-! SUPPORT. LOOP.SET and LOOP.QUERY: the items of a loop in range, and the loop block read back (R103, R105, R106). -/

namespace Sys2Proof.Machine

/-! ## Items and what they spell (R200) -/

theorem inRange_eq_some {n : Nat} (hn : n ≤ 256) (b : Byte) (t : Fin n) : inRange n b = some t ↔ natByte t.val = b := by
  have toNat : (natByte t.val).toNat = t.val := by
    rw [natByte, BitVec.toNat_ofNat, Nat.mod_eq_of_lt (by omega)]
  rw [← BitVec.toNat_inj, toNat, inRange]
  split_ifs with h
  · simp [Fin.ext_iff, eq_comm]
  · simp
    omega

theorem flagOf_eq_some (b : Byte) (x : Bool) : flagOf b = some x ↔ flagByte x = b := by
  constructor
  · unfold flagOf
    split_ifs with h h' <;> simp_all [flagByte]
  · rintro rfl
    exact flagOf_flagByte x

theorem lineOf_eq_some (b : Byte) (x : Line) : lineOf b = some x ↔ lineByte x = b := by
  constructor
  · unfold lineOf
    split_ifs with h h' <;> cases x <;> simp_all [lineByte]
  · rintro rfl
    exact lineOf_lineByte x

theorem lineOf_isSome (b : Byte) : (lineOf b).isSome = true ↔ b.toNat ≤ 1 := by
  have same : (lineOf b).isSome = (flagOf b).isSome := by
    unfold lineOf flagOf
    split_ifs <;> rfl
  rw [same, flagOf_isSome]

theorem polarity_byte (inverse : Bool) : (if inverse then Polarity.inverse else .direct).byte = flagByte inverse := by
  cases inverse <;> rfl

/-- The flag that the byte of a polarity is, and the polarity it gives. -/
theorem flagOf_polarity {p : Polarity} {b : Byte} (h : p.byte = b) :
    ∃ inverse : Bool, flagOf b = some inverse ∧ (if inverse then Polarity.inverse else .direct) = p := by
  subst h
  cases p
  · exact ⟨false, rfl, rfl⟩
  · exact ⟨true, rfl, rfl⟩

theorem ascending_iff (l : List (Val × Val)) :
    ascending l = true ↔ l.Pairwise fun p q => p.1.toNat < q.1.toNat := by
  induction l with
  | nil => simp [ascending]
  | cons p l ih =>
    cases l with
    | nil => simp [ascending]
    | cons q l =>
      rw [ascending, Bool.and_eq_true, decide_eq_true_iff, ih, List.pairwise_cons (a := p), List.forall_mem_cons]
      refine ⟨fun ⟨lt, rising⟩ => ⟨⟨lt, fun x hx => ?_⟩, rising⟩, fun ⟨⟨lt, _⟩, rising⟩ => ⟨lt, rising⟩⟩
      exact lt.trans ((List.pairwise_cons.1 rising).1 x hx)

/-! ## The items of a follower (R103) -/

/-- The points of a follower in their ranges: 2 to 8 of them, with rising keys. -/
abbrev PointsInRange (l : List (Val × Val)) : Prop :=
  2 ≤ l.length ∧ l.length ≤ 8 ∧ l.Pairwise fun p q => p.1.toNat < q.1.toNat

theorem followerOf_absent {r : RawLoop} (h : r.followerPresent = 0#8) : followerOf r = some none := by
  rw [followerOf, h]
  rfl

theorem followerOf_present {r : RawLoop} (h : r.followerPresent = 1#8) (o : Option Follower) :
    followerOf r = some o ↔ PointsInRange r.points ∧
      ∃ t : Fin 16, natByte t.val = r.followerTarget ∧ o = some ⟨t, r.followerReg, r.points⟩ := by
  have flag : flagOf r.followerPresent = some true := by rw [h]; rfl
  simp only [followerOf, flag, ascending_iff]
  split_ifs with points
  · simp only [Option.map_eq_some_iff, inRange_eq_some (show 16 ≤ 256 by decide), eq_comm (b := o), and_iff_right points]
  · simp [points]

/-- The presence flag is one, whatever follower it gives. -/
theorem followerPresent_of_followerOf {r : RawLoop} {o : Option Follower} (h : followerOf r = some o) :
    r.followerPresent = 0#8 ∨ r.followerPresent = 1#8 := by
  obtain ⟨x, hx⟩ : ∃ x, flagOf r.followerPresent = some x := by
    refine Option.ne_none_iff_exists'.1 fun bad => ?_
    rw [followerOf, bad] at h
    cases h
  rw [← (flagOf_eq_some _ _).1 hx]
  cases x
  · exact .inl rfl
  · exact .inr rfl

/-! ## The items of a loop (R103, R105) -/

/-- Items that spell a configuration, field by field; those of an absent follower are ignored (log entry 18). -/
structure LoopCfg.SpeltBy (c : LoopCfg) (r : RawLoop) : Prop where
  line : lineByte c.line = r.line
  period : c.period = r.period
  measTarget : natByte c.measTarget.val = r.measTarget
  measReg : c.measReg = r.measReg
  outTarget : natByte c.outTarget.val = r.outTarget
  outReg : c.outReg = r.outReg
  setpoint : c.setpoint = r.setpoint
  step : c.step = r.step
  narrow : c.narrow = r.narrow
  wide : c.wide = r.wide
  min : c.min = r.min
  max : c.max = r.max
  polarity : c.polarity.byte = r.polarity
  fast : flagByte c.fast = r.fast
  initialOutput : c.initialOutput = r.initialOutput
  autostart : flagByte c.autostart = r.autostart
  follower : followerOf r = some c.follower

/-- The ranges of a configuration that consult no target entry, those of the follower's points apart (R103). -/
structure LoopCfg.InRange (c : LoopCfg) : Prop where
  period : 1 ≤ c.period.toNat ∧ c.period.toNat ≤ 16
  step : 1 ≤ c.step.toNat
  narrow : c.narrow.toNat ≤ c.wide.toNat
  low : c.min.toNat ≤ c.initialOutput.toNat
  high : c.initialOutput.toNat ≤ c.max.toNat
  apart : c.followerApart = true

/-- The configuration taken from items is the one they spell, in its ranges. -/
theorem loopCfgOf_eq_some (r : RawLoop) (c : LoopCfg) : loopCfgOf r = some c ↔ c.SpeltBy r ∧ c.InRange := by
  constructor
  · intro h
    simp only [loopCfgOf, Option.bind_eq_bind, Option.bind_eq_some_iff, Option.ite_none_right_eq_some, Option.some.injEq]
      at h
    obtain ⟨line, hline, meas, hmeas, out, hout, inverse, hinv, fast, hfast, auto, hauto, follower, hfollower,
      ⟨p1, p16, step, narrow, low, high, -, apart⟩, rfl⟩ := h
    rw [lineOf_eq_some] at hline
    rw [inRange_eq_some (by decide)] at hmeas hout
    rw [flagOf_eq_some] at hinv hfast hauto
    exact ⟨⟨hline, rfl, hmeas, rfl, hout, rfl, rfl, rfl, rfl, rfl, rfl, rfl, (polarity_byte _).trans hinv, hfast, rfl, hauto,
      hfollower⟩, ⟨p1, p16⟩, step, narrow, low, high, apart⟩
  · rintro ⟨h, range⟩
    obtain ⟨inverse, polarity, hinv⟩ := flagOf_polarity h.polarity
    obtain ⟨⟨p1, p16⟩, step, narrow, low, high, apart⟩ := range
    simp only [loopCfgOf, (lineOf_eq_some ..).2 h.line, (inRange_eq_some (by decide) ..).2 h.measTarget,
      (inRange_eq_some (by decide) ..).2 h.outTarget, polarity, (flagOf_eq_some ..).2 h.fast,
      (flagOf_eq_some ..).2 h.autostart, h.follower, hinv, ← h.period, ← h.measReg, ← h.outReg, ← h.setpoint, ← h.step,
      ← h.narrow, ← h.wide, ← h.min, ← h.max, ← h.initialOutput, Option.bind_eq_bind, Option.bind_some]
    exact if_pos ⟨p1, p16, step, narrow, low, high, low.trans high, apart⟩

/-- The follower names another register than the output's own (R105). -/
theorem followerApart_iff (c : LoopCfg) :
    c.followerApart = true ↔ ∀ f, c.follower = some f → f.target ≠ c.outTarget ∨ f.reg ≠ c.outReg := by
  unfold LoopCfg.followerApart
  cases c.follower with
  | none => simp
  | some f =>
    simp only [Bool.not_eq_true', Bool.and_eq_false_iff, beq_eq_false_iff_ne, Option.some.injEq, forall_eq']

/-- The follower that items spell has the points they give, in their ranges. -/
theorem LoopCfg.SpeltBy.points {c : LoopCfg} {r : RawLoop} (h : c.SpeltBy r) {f : Follower} (hf : c.follower = some f) :
    PointsInRange f.points := by
  have follower := h.follower
  rcases followerPresent_of_followerOf follower with absent | present
  · rw [followerOf_absent absent, hf] at follower
    cases follower
  · obtain ⟨points, t, -, ht⟩ := (followerOf_present present _).1 follower
    cases hf.symm.trans ht
    exact points

theorem natByte_inj {n : Nat} (hn : n ≤ 256) {t u : Fin n} : natByte t.val = natByte u.val ↔ t = u := by
  rw [← inRange_eq_some hn, (inRange_eq_some hn _ u).2 rfl, Option.some.injEq, eq_comm]

/-- The follower items that are in range beside an output target, and name another register than the output's own (R103,
R105). -/
theorem followerOf_isSome {r : RawLoop} {out : Fin 16} (hout : natByte out.val = r.outTarget) :
    (∃ o, followerOf r = some o ∧ ∀ f, o = some f → f.target ≠ out ∨ f.reg ≠ r.outReg) ↔
      r.followerPresent.toNat ≤ 1 ∧
      (r.followerPresent = 1#8 →
        r.followerTarget.toNat ≤ 15 ∧ 2 ≤ r.points.length ∧ r.points.length ≤ 8 ∧
        r.points.Pairwise (fun p q => p.1.toNat < q.1.toNat) ∧
        (r.followerTarget ≠ r.outTarget ∨ r.followerReg ≠ r.outReg)) := by
  have same {t : Fin 16} (ht : natByte t.val = r.followerTarget) : r.followerTarget ≠ r.outTarget ↔ t ≠ out := by
    rw [← ht, ← hout, ne_eq, natByte_inj (by decide)]
  rw [← Nat.lt_succ_iff (n := 15), ← inRange_isSome, Option.isSome_iff_exists]
  constructor
  · rintro ⟨o, follower, apart⟩
    refine ⟨?_, fun present => ?_⟩
    · rcases followerPresent_of_followerOf follower with h | h <;> simp [h]
    · obtain ⟨⟨two, eight, rising⟩, t, ht, rfl⟩ := (followerOf_present present o).1 follower
      exact ⟨⟨t, (inRange_eq_some (by decide) ..).2 ht⟩, two, eight, rising, (apart _ rfl).imp_left (same ht).2⟩
  · rintro ⟨flag, items⟩
    by_cases present : r.followerPresent = 1#8
    · obtain ⟨⟨t, ht⟩, two, eight, rising, apart⟩ := items present
      rw [inRange_eq_some (by decide)] at ht
      refine ⟨_, (followerOf_present present _).2 ⟨⟨two, eight, rising⟩, t, ht, rfl⟩, fun f hf => ?_⟩
      obtain rfl := Option.some.inj hf
      exact apart.imp_left (same ht).1
    · have one := mt (byte_eq_iff r.followerPresent 1 (by decide)).2 present
      have absent := (byte_eq_iff r.followerPresent 0 (by decide)).2 (by omega)
      exact ⟨none, followerOf_absent absent, fun f hf => nomatch hf⟩

/-- The items of a loop that are in range, whatever the targets (R103, R105). -/
theorem loopCfgOf_isSome (r : RawLoop) : (loopCfgOf r).isSome = true ↔
    r.line.toNat ≤ 1 ∧ 1 ≤ r.period.toNat ∧ r.period.toNat ≤ 16 ∧ r.measTarget.toNat ≤ 15 ∧ r.outTarget.toNat ≤ 15 ∧
    1 ≤ r.step.toNat ∧ r.narrow.toNat ≤ r.wide.toNat ∧ r.min.toNat ≤ r.initialOutput.toNat ∧
    r.initialOutput.toNat ≤ r.max.toNat ∧ r.polarity.toNat ≤ 1 ∧ r.fast.toNat ≤ 1 ∧ r.autostart.toNat ≤ 1 ∧
    r.followerPresent.toNat ≤ 1 ∧
    (r.followerPresent = 1#8 →
      r.followerTarget.toNat ≤ 15 ∧ 2 ≤ r.points.length ∧ r.points.length ≤ 8 ∧
      r.points.Pairwise (fun p q => p.1.toNat < q.1.toNat) ∧
      (r.followerTarget ≠ r.outTarget ∨ r.followerReg ≠ r.outReg)) := by
  rw [← lineOf_isSome, ← Nat.lt_succ_iff (m := r.measTarget.toNat), ← inRange_isSome,
    ← Nat.lt_succ_iff (m := r.outTarget.toNat), ← inRange_isSome, ← flagOf_isSome r.polarity, ← flagOf_isSome r.fast,
    ← flagOf_isSome r.autostart]
  simp only [Option.isSome_iff_exists, loopCfgOf_eq_some]
  constructor
  · rintro ⟨c, spelt, ⟨p1, p16⟩, step, narrow, low, high, apart⟩
    obtain ⟨inverse, polarity, -⟩ := flagOf_polarity spelt.polarity
    have follower := (followerOf_isSome spelt.outTarget).1
      ⟨_, spelt.follower, fun f hf => spelt.outReg ▸ (followerApart_iff c).1 apart f hf⟩
    rw [spelt.period] at p1 p16
    rw [spelt.step] at step
    rw [spelt.narrow, spelt.wide] at narrow
    rw [spelt.min, spelt.initialOutput] at low
    rw [spelt.initialOutput, spelt.max] at high
    exact ⟨⟨_, (lineOf_eq_some ..).2 spelt.line⟩, p1, p16, ⟨_, (inRange_eq_some (by decide) ..).2 spelt.measTarget⟩,
      ⟨_, (inRange_eq_some (by decide) ..).2 spelt.outTarget⟩, step, narrow, low, high, ⟨_, polarity⟩,
      ⟨_, (flagOf_eq_some ..).2 spelt.fast⟩, ⟨_, (flagOf_eq_some ..).2 spelt.autostart⟩, follower⟩
  · rintro ⟨⟨line, hline⟩, p1, p16, ⟨meas, hmeas⟩, ⟨out, hout⟩, step, narrow, low, high, ⟨inverse, hinverse⟩, ⟨fast, hfast⟩,
      ⟨auto, hauto⟩, items⟩
    rw [lineOf_eq_some] at hline
    rw [inRange_eq_some (by decide)] at hmeas hout
    rw [flagOf_eq_some] at hinverse hfast hauto
    obtain ⟨follower, hfollower, apart⟩ := (followerOf_isSome hout).2 items
    exact ⟨⟨line, r.period, meas, r.measReg, out, r.outReg, r.setpoint, r.step, r.narrow, r.wide, r.min, r.max,
      if inverse then .inverse else .direct, fast, r.initialOutput, auto, follower⟩,
      ⟨hline, rfl, hmeas, rfl, hout, rfl, rfl, rfl, rfl, rfl, rfl, rfl, (polarity_byte _).trans hinverse, hfast, rfl, hauto,
        hfollower⟩, ⟨p1, p16⟩, step, narrow, low, high, (followerApart_iff _).2 apart⟩

/-! ## The widths of the targets (R105) -/

theorem loopCfg_fits_iff (c : LoopCfg) (tgt : Table TargetEntry 16) :
    c.fits tgt = true ↔
      c.measReg.toNat ≤ tgt[c.measTarget].cfg.regWidth.last ∧ c.outReg.toNat ≤ tgt[c.outTarget].cfg.regWidth.last ∧
      c.min.toNat < 2 ^ (8 * tgt[c.outTarget].cfg.dataWidth.bytes) ∧
      c.max.toNat < 2 ^ (8 * tgt[c.outTarget].cfg.dataWidth.bytes) ∧
      c.initialOutput.toNat < 2 ^ (8 * tgt[c.outTarget].cfg.dataWidth.bytes) ∧
      ∀ f, c.follower = some f → f.reg.toNat ≤ tgt[f.target].cfg.regWidth.last ∧
        ∀ p ∈ f.points, p.2.toNat < 2 ^ (8 * tgt[f.target].cfg.dataWidth.bytes) := by
  unfold LoopCfg.fits
  cases c.follower <;>
    simp only [RegWidth.admits, DataWidth.admits, Bool.and_eq_true, decide_eq_true_iff, List.all_eq_true, and_assoc,
      Option.some.injEq, forall_eq', reduceCtorEq, false_imp_iff, implies_true]

/-! ## The loop block read back (10.5.2, R203) -/

theorem byteAt_drop (l : List Byte) (o i : Nat) : byteAt (l.drop o) i = byteAt l (o + i) := by
  simp [byteAt, List.getD_eq_getElem?_getD]

theorem halfAt_of_drop {l r : List Byte} {o : Nat} {x : Half} (h : l.drop o = halfBytes x ++ r) : halfAt l o = x := by
  have read := halfAt_halfBytes x r
  rw [← h, halfAt, byteAt_drop, byteAt_drop] at read
  exact read

theorem valAt_of_drop {l r : List Byte} {o : Nat} {x : Val} (h : l.drop o = valBytes x ++ r) : valAt l o = x := by
  have read := valAt_valBytes x r
  simp only [← h, valAt, halfAt, byteAt_drop] at read
  exact read

/-- Points read back one by one. -/
theorem pointsAt_of_drop {l r : List Byte} {o : Nat} {points : List (Val × Val)}
    (h : l.drop o = points.flatMap pointBytes ++ r) : pointsAt l o points.length = points := by
  induction points generalizing o with
  | nil => rfl
  | cons p points ih =>
    rw [List.flatMap_cons, pointBytes, List.append_assoc, List.append_assoc] at h
    have value : l.drop (o + 4) = valBytes p.2 ++ (points.flatMap pointBytes ++ r) := by
      rw [← List.drop_drop, h]
      rfl
    have rest : l.drop (o + 8) = points.flatMap pointBytes ++ r := by
      rw [show o + 8 = o + 4 + 4 from rfl, ← List.drop_drop, value]
      rfl
    rw [List.length_cons, pointsAt, valAt_of_drop h, valAt_of_drop value, ih rest]

theorem length_followerBytes {o : Option Follower} (points : ∀ f, o = some f → f.points.length ≤ 8) :
    (followerBytes o).length = 69 := by
  cases o with
  | none => rfl
  | some f =>
    have := points f rfl
    simp [followerBytes, pointBytes]
    omega

/-- The follower part of a block gives the follower it was written from. -/
theorem followerOf_rawLoopAt {l : List Byte} {o : Option Follower} (bytes : l.drop 38 = followerBytes o)
    (points : ∀ f, o = some f → PointsInRange f.points) :
    followerOf (rawLoopAt l 1 (byteAt l 42).toNat) = some o := by
  cases o with
  | none =>
    have present : byteAt l 38 = 0#8 := by rw [← byteAt_drop l 38 0, bytes]; rfl
    exact followerOf_absent present
  | some f =>
    have inRange := points f rfl
    have present : byteAt l 38 = 1#8 := by rw [← byteAt_drop l 38 0, bytes]; rfl
    have target : byteAt l 39 = natByte f.target.val := by rw [← byteAt_drop l 38 1, bytes]; rfl
    have reg : halfAt l 40 = f.reg := halfAt_of_drop (by rw [← List.drop_drop (i := 2) (j := 38), bytes]; rfl)
    have count : (byteAt l 42).toNat = f.points.length := by
      have byte : byteAt l 42 = natByte f.points.length := by rw [← byteAt_drop l 38 4, bytes]; rfl
      rw [byte, natByte, BitVec.toNat_ofNat, Nat.mod_eq_of_lt (by omega)]
    have read : pointsAt l 43 (byteAt l 42).toNat = f.points := by
      rw [count]
      exact pointsAt_of_drop (by rw [← List.drop_drop (i := 5) (j := 38), bytes]; rfl)
    refine (followerOf_present present _).2 ⟨by rwa [rawLoopAt, read], f.target, target.symm, ?_⟩
    simp only [rawLoopAt, reg, read]

/-- The items of a loop block, one behind the other (10.5.2). -/
theorem loopBlock_eq (configured : Bool) (c : LoopCfg) :
    loopBlock configured c =
      flagByte configured :: lineByte c.line :: c.period :: natByte c.measTarget.val :: (halfBytes c.measReg ++
        natByte c.outTarget.val :: (halfBytes c.outReg ++ (valBytes c.setpoint ++ (halfBytes c.step ++ (valBytes c.narrow ++
        (valBytes c.wide ++ (valBytes c.min ++ (valBytes c.max ++ c.polarity.byte :: flagByte c.fast ::
        (valBytes c.initialOutput ++ flagByte c.autostart :: followerBytes c.follower))))))))) := by
  simp only [loopBlock, List.append_assoc, List.cons_append, List.nil_append]

/-- The block of a loop spells its configuration (R106). -/
theorem speltBy_loopBlock (configured : Bool) {c : LoopCfg} (points : ∀ f, c.follower = some f → PointsInRange f.points) :
    c.SpeltBy (rawLoopAt (loopBlock configured c) 1 (byteAt (loopBlock configured c) 42).toNat) := by
  rw [loopBlock_eq]
  exact
    { line := rfl
      period := rfl
      measTarget := rfl
      measReg := (halfAt_of_drop rfl).symm
      outTarget := rfl
      outReg := (halfAt_of_drop rfl).symm
      setpoint := (valAt_of_drop rfl).symm
      step := (halfAt_of_drop rfl).symm
      narrow := (valAt_of_drop rfl).symm
      wide := (valAt_of_drop rfl).symm
      min := (valAt_of_drop rfl).symm
      max := (valAt_of_drop rfl).symm
      polarity := rfl
      fast := rfl
      initialOutput := (valAt_of_drop rfl).symm
      autostart := rfl
      follower := followerOf_rawLoopAt rfl points }

theorem length_loopBlock (configured : Bool) {c : LoopCfg} (points : ∀ f, c.follower = some f → f.points.length ≤ 8) :
    (loopBlock configured c).length = 107 := by
  have length : (loopBlock configured c).length = 38 + (followerBytes c.follower).length := by
    simp [loopBlock]
    omega
  rw [length, length_followerBytes points]

/-! ## The requests (R105, R106) -/

theorem jobsOutBytes_eq (s : State) (n : Fin 4) :
    jobsOutBytes s n = (upTo 4).flatMap fun l =>
      (((s.lane l).flight.toList.map (·.job) ++ (s.lane l).queue).filter (Job.ofLoop n)).flatMap fun j =>
        [j.kindByte, natByte l.val] := by
  refine congrArg (List.flatMap · (upTo 4)) (funext fun l => ?_)
  cases h : (s.lane l).flight <;> simp only [h] <;> rfl

/-- Settles O39: the requests check by check, and the items by the configuration they spell. -/
theorem loopSetAndQuery : Obligations.LoopSetAndQuery := by
  refine ⟨fun s h n ha => ⟨fun r hr => ?set, ?query⟩, loopCfgOf_isSome, fun r c hc => ?fields,
    loopCfg_fits_iff, fun r c hc => ?ranges⟩
  case set =>
    have short : loopLength r = none := if_pos hr
    simp only [exec_loopSet short]
    refine ⟨fun run => ?running, fun rest => ⟨fun bad => ?range, fun c hc => ⟨fun unfit => ?widths, fun fits => ?taken⟩⟩⟩
    case running =>
      refine taking_answered ha ?_
      rw [ownLoopSet, inRange_natByte_4]
      simp [run]
    case range =>
      refine taking_answered ha ?_
      rw [ownLoopSet, inRange_natByte_4]
      simp [rest, bad]
    case widths =>
      refine taking_answered ha ?_
      rw [ownLoopSet, inRange_natByte_4]
      simp [rest, hc, unfit]
    case taken =>
      refine request_replied ha 0x40#8 (fun t => t.setLoop n { s.loop n with configured := true, cfg := c }) .ok [] ?_ rfl rfl
      rw [ownLoopSet, inRange_natByte_4]
      simp [rest, hc, fits]
  case query =>
    rw [← jobsOutBytes_eq]
    refine request_replied ha 0x43#8 (fun t => t.setLoop n { s.loop n with skipSeen := false }) .ok _ ?_ rfl rfl
    rw [ownLoopQuery, inRange_natByte_4]
    rfl
  case fields =>
    obtain ⟨spelt, range⟩ := (loopCfgOf_eq_some r c).1 hc
    refine ⟨spelt.line, spelt.period, spelt.measTarget, spelt.measReg, spelt.outTarget, spelt.outReg, spelt.setpoint,
      spelt.step, spelt.narrow, spelt.wide, spelt.min, spelt.max, spelt.polarity, spelt.fast, spelt.initialOutput,
      spelt.autostart, fun absent => ?absent, fun present => ?present, fun configured => ?block⟩
    case absent =>
      have follower := spelt.follower
      rw [followerOf_absent absent, Option.some.injEq] at follower
      exact follower.symm
    case present => exact ((followerOf_present present _).1 spelt.follower).2
    case block =>
      have points (f : Follower) (hf : c.follower = some f) := spelt.points hf
      exact ⟨length_loopBlock configured fun f hf => (points f hf).2.1, rfl,
        (loopCfgOf_eq_some ..).2 ⟨speltBy_loopBlock configured points, range⟩⟩
  case ranges =>
    obtain ⟨spelt, ⟨p1, p16⟩, step, narrow, low, high, apart⟩ := (loopCfgOf_eq_some r c).1 hc
    refine ⟨p1, p16, step, narrow, low, high, fun f hf => ?_⟩
    obtain ⟨two, eight, rising⟩ := spelt.points hf
    exact ⟨two, eight, rising, (followerApart_iff c).1 apart f hf⟩

end Sys2Proof.Machine
end

section
/-! SUPPORT. The decision on a measure and the adjustment (R113 to R116), and the end of a loop's job (R109, R111, R117, R118,
R120). -/

namespace Sys2Proof.Machine

/-! ## The error and the new output value (R114, R115) -/

theorem error_eq (c : LoopCfg) (m : Val) :
    c.error m = if c.polarity = .direct then (c.setpoint.toNat : Int) - m.toNat else (m.toNat : Int) - c.setpoint.toNat := by
  unfold LoopCfg.error
  cases c.polarity <;> rfl

theorem clamp_above {c : LoopCfg} {x : Int} (h : (c.max.toNat : Int) < x) : c.clamp x = c.max := if_pos h

theorem clamp_below {c : LoopCfg} {x : Int} (limits : c.min.toNat ≤ c.max.toNat) (h : x < (c.min.toNat : Int)) :
    c.clamp x = c.min := by
  rw [LoopCfg.clamp, if_neg (by omega), if_pos h]

theorem toNat_clamp {c : LoopCfg} {x : Int} (low : (c.min.toNat : Int) ≤ x) (high : x ≤ (c.max.toNat : Int)) :
    ((c.clamp x).toNat : Int) = x := by
  have max := c.max.isLt
  rw [LoopCfg.clamp, if_neg (by omega), if_neg (by omega), BitVec.toNat_ofNat, Nat.mod_eq_of_lt (by omega)]
  omega

/-! ## The adjustment (R115, R116) -/

section
variable (s : State) (n : Fin 4)

/-- The part of an adjustment that writes: the output alone, with no follower that the new value moves (R116). -/
theorem appendAdjustment_output {v : Val}
    (still : (s.loop n).cfg.follower = none ∨ ∃ f, (s.loop n).cfg.follower = some f ∧ f.lookup v = (s.loop n).lastFollower) :
    s.appendAdjustment n v =
      (s.setLoop n { s.loop n with cycle := .output, jobsOut := 1 }).appendJob
        (s.target (s.loop n).cfg.outTarget).cfg.lane (.loop n .output (s.loop n).cfg.outTarget (s.loop n).cfg.outReg v) := by
  have write : (s.loop n).followerWrite v = none := by
    rcases still with h | ⟨f, h, same⟩
    · rw [LoopEntry.followerWrite, h]
    · simp only [LoopEntry.followerWrite, h, same, if_true]
  simp only [State.appendAdjustment, write]
  rfl

/-- With a follower that the new value moves, the follower too (R116). -/
theorem appendAdjustment_follower {v : Val} {f : Follower} (follower : (s.loop n).cfg.follower = some f)
    (moved : f.lookup v ≠ (s.loop n).lastFollower) :
    s.appendAdjustment n v =
      ((s.setLoop n { s.loop n with cycle := .output, jobsOut := 2 }).appendJob
        (s.target (s.loop n).cfg.outTarget).cfg.lane
        (.loop n .output (s.loop n).cfg.outTarget (s.loop n).cfg.outReg v)).appendJob
        (s.target f.target).cfg.lane (.loop n .follower f.target f.reg (f.lookup v)) := by
  have write : (s.loop n).followerWrite v = some (f.target, f.reg, f.lookup v) := by
    simp only [LoopEntry.followerWrite, follower, moved, if_false]
  simp only [State.appendAdjustment, write]
  rfl

/-- A loop whose cycle ends in `st` (R114, R115). -/
def State.cycleEnds (x : LoopEntry) (st : LoopState) : State :=
  s.setLoop n { x with cycle := .none, stale := false, state := st }

variable (x : LoopEntry) (st : LoopState) (e : Int)

theorem loopRests_setLoop (y : LoopEntry) :
    (s.setLoop n y).loopRests n st e = (s.cycleEnds n y st).notifyLoop n (some e) none := by
  rw [State.loopRests, State.loop_setLoop_self, setLoop_setLoop]
  rfl

/-- An adjustment of a loop in the state `st`: at a limit it holds or reports it, else it writes (R115). -/
theorem adjust_setLoop :
    (s.setLoop n { x with state := st }).adjust n e =
      if x.cfg.adjusted x.output e = x.output then
        if st = .limited then s.cycleEnds n x .limited
        else (s.cycleEnds n x .limited).notifyLoop n (some e) none
      else (s.setLoop n { x with state := st }).appendAdjustment n (x.cfg.adjusted x.output e) := by
  rw [State.adjust, State.loop_setLoop_self, loopRests_setLoop, setLoop_setLoop]
  split_ifs with held limit
  · obtain rfl : st = .limited := limit
    rfl
  · rfl
  · rfl

end

/-! ## The decision (R113, R114) -/

section
variable {s : State} {n : Fin 4}

theorem measured_eq (s : State) (n : Fin 4) (m : Val) :
    s.measured n m = (s.setLoop n { s.loop n with lastMeasure := some m }).decide n ((s.loop n).cfg.error m) := by
  rw [State.measured, State.loop_setLoop_self]

theorem decide_unsettled {x : LoopEntry} (h : x.state = .tracking ∨ x.state = .limited) (e : Int) :
    (s.setLoop n x).decide n e =
      if e.natAbs ≤ x.cfg.narrow.toNat then (s.cycleEnds n x .settled).notifyLoop n (some e) none
      else (s.setLoop n x).adjust n e := by
  rw [State.decide, State.loop_setLoop_self, loopRests_setLoop]
  rcases h with h | h <;> rw [h]

theorem decide_settled {x : LoopEntry} (h : x.state = .settled) (e : Int) :
    (s.setLoop n x).decide n e =
      if e.natAbs ≤ x.cfg.wide.toNat then s.cycleEnds n x .settled
      else (s.setLoop n { x with state := .tracking }).adjust n e := by
  rw [State.decide, State.loop_setLoop_self, setLoop_setLoop, setLoop_setLoop, h]
  simp only [State.cycleEnds, ← h]
  rfl

end

/-- The notice of a loop that rests carries its measure, its error and no cause (R121, R204). -/
theorem loopNotice_error {x : LoopEntry} {m : Val} (measure : x.lastMeasure = some m) (n : Fin 4) (e : Int) :
    loopNotice n x (some e) none =
      [natByte n.val, x.state.byte] ++ valBytes x.output ++ valBytes x.cfg.setpoint ++ [1#8] ++ valBytes m ++
        [1#8, (if e < 0 then 1#8 else 0#8)] ++ valBytes (BitVec.ofNat 32 e.natAbs) ++ List.replicate 6 0#8 := by
  simp [loopNotice, optional, errorBytes, flagByte, measure, List.replicate]

/-- Settles O43: the decision by the loop's state, the adjustment by its new value, the notice by what it carries. -/
theorem loopDecision : Obligations.LoopDecision := by
  intro s n m x e ends rests delta v adjusts
  have error : (s.loop n).cfg.error m = e := error_eq ..
  have measured : s.measured n m = (s.setLoop n x).decide n e := by rw [measured_eq, error]
  have adjusted (st : LoopState) (h : s.measured n m = (s.setLoop n { x with state := st }).adjust n e) : adjusts st := by
    rw [adjust_setLoop] at h
    refine ⟨fun held limit => ?_, fun held track => ?_, fun moved => ?_⟩
    · exact h.trans ((if_pos held).trans (if_pos limit))
    · exact h.trans ((if_pos held).trans (if_neg (by simp [track])))
    · exact h.trans (if_neg moved)
  refine ⟨fun active => ⟨fun near => ?_, fun far => adjusted _ ?_⟩, fun settled => ⟨fun near => ?_, fun far => adjusted _ ?_⟩,
    fun st => ⟨?_, rfl, rfl⟩, fun _ limits => ⟨clamp_above, clamp_below limits, toNat_clamp⟩,
    fun w => ⟨appendAdjustment_output s n, fun f => appendAdjustment_follower s n⟩⟩
  · rw [measured, decide_unsettled active, if_pos near]
    rfl
  · rw [measured, decide_unsettled active, if_neg (Nat.not_le.2 far)]
  · rw [measured, decide_settled settled, if_pos near]
    rfl
  · rw [measured, decide_settled settled, if_neg (Nat.not_le.2 far)]
  · have entry : (ends st).loop n = { x with cycle := .none, stale := false, state := st } := State.loop_setLoop_self ..
    refine (congrArg (fun p => ((ends st).notify 0x04#8 p).hpt) ?_).trans (notify_hpt_congr (s := ends st) rfl rfl rfl ..)
    rw [entry, loopNotice_error rfl]

/-! ## The end of a loop's job (R109, R111, R117, R118, R120) -/

/-- A loop entry with a job less out (R111). -/
def LoopEntry.jobBack (x : LoopEntry) : LoopEntry := { x with jobsOut := x.jobsOut - 1 }

section
variable {s : State} {n : Fin 4} {k : LoopJobKind} {t : Fin 16} {reg : Half}

theorem loopJobEnd_leftover (ended : (s.loop n).cycle = .none) (e : LoopEnd) :
    s.loopJobEnd n k t reg e = s.setLoop n (s.loop n).jobBack := by
  rw [State.loopJobEnd, State.loop_setLoop_self, if_pos ended]
  rfl

theorem loopJobEnd_cycle (busy : (s.loop n).cycle ≠ .none) (e : LoopEnd) :
    s.loopJobEnd n k t reg e = (s.setLoop n (s.loop n).jobBack).cycleJobEnd n k t reg e := by
  rw [State.loopJobEnd, State.loop_setLoop_self, if_neg busy]
  rfl

theorem cycleJobEnd_measured (x : LoopEntry) (v : Val) :
    (s.setLoop n x).cycleJobEnd n .measure t reg (.success v) = (s.setLoop n x).measured n v := rfl

theorem cycleJobEnd_landed (write : k ≠ .measure) (x : LoopEntry) (v : Val) :
    (s.setLoop n x).cycleJobEnd n k t reg (.success v) = s.setLoop n (x.landed k v).writeEnded := by
  rw [State.cycleJobEnd, if_neg write, State.loop_setLoop_self, setLoop_setLoop]

theorem cycleJobEnd_dropped (x : LoopEntry) :
    (s.setLoop n x).cycleJobEnd n k t reg .dropped = s.setLoop n x.writeEnded := by
  rw [State.cycleJobEnd, State.loop_setLoop_self, setLoop_setLoop]

/-- A loop that faults: its queued jobs are withdrawn, and N.LOOP tells the cause (R120, R121). -/
theorem faultLoop_setLoop (x : LoopEntry) (b : Byte) :
    (s.setLoop n x).faultLoop n k t reg b =
      ((s.dropQueued (Job.ofLoop n)).setLoop n (x.left .faulted (s.queuedCount (Job.ofLoop n)))).notify 0x04#8
        (loopNotice n (x.left .faulted (s.queuedCount (Job.ofLoop n))) none (some (k, t, reg, b))) := by
  rw [State.faultLoop, leaveRun_eq, dropQueued_setLoop, setLoop_setLoop, State.notifyLoop, State.loop_setLoop_self,
    State.loop_setLoop_self]
  rfl

end

/-- Settles O45: a leftover, a measure, a write landed or dropped, and a failure, which leaves the run. -/
theorem loopJobEnds : Obligations.LoopJobEnds := by
  intro s n k t reg x ended
  refine ⟨loopJobEnd_leftover, fun busy => ?_⟩
  have end_eq (e : LoopEnd) : s.loopJobEnd n k t reg e = (s.setLoop n x).cycleJobEnd n k t reg e := loopJobEnd_cycle busy e
  have landed (v : Val) (write : k ≠ .measure) :
      s.loopJobEnd n k t reg (.success v) = s.setLoop n (x.landed k v).writeEnded :=
    (end_eq _).trans (cycleJobEnd_landed write x v)
  refine ⟨?measure, ?output, ?follower, ?outputSeed, ?followerSeed, fun _ => (end_eq _).trans (cycleJobEnd_dropped x),
    fun e b failure => ?fault⟩
  case measure =>
    rintro v rfl
    exact end_eq _
  case output =>
    rintro v rfl
    exact landed v (by decide)
  case follower =>
    rintro v rfl
    exact landed v (by decide)
  case outputSeed =>
    rintro v rfl
    exact landed v (by decide)
  case followerSeed =>
    rintro v rfl
    exact landed v (by decide)
  case fault =>
    intro u y
    have fault : u = ((s.dropQueued (Job.ofLoop n)).setLoop n y).notify 0x04#8
        (loopNotice n y none (some (k, t, reg, b))) := by
      refine (end_eq e).trans (Eq.trans ?_ (faultLoop_setLoop x b))
      rcases failure with ⟨r, rfl, rfl⟩ | ⟨rfl, rfl⟩ <;> rfl
    have lane (l : Fin 4) : u.lane l = (s.dropQueued (Job.ofLoop n)).lane l := by rw [fault]; rfl
    have loop (m : Fin 4) : u.loop m = if n = m then y else s.loop m := by
      rw [fault, ← loop_dropQueued s (Job.ofLoop n) m, ← State.loop_setLoop]
      rfl
    obtain ⟨lanes, drop⟩ := dropQueued_eq s (Job.ofLoop n)
    refine ⟨(loop n).trans (if_pos rfl), fun m other => (loop m).trans (if_neg (Ne.symm other)), fun l =>
      (lane l).trans (lane_dropQueued ..), ?_⟩
    rw [fault, drop]
    exact ⟨rfl, rfl, rfl, notify_hpt_congr rfl rfl rfl ..⟩

end Sys2Proof.Machine
end

section
/-! SUPPORT. What reaches a loop from the other blocks: hand-ons, setpoints and accepted edges (R112, R122, R124, R125). -/

namespace Sys2Proof.Machine

/-! ## Jobs of a kind on the lanes -/

theorem queuedCount_ne_zero_iff (s : State) (p : Job → Bool) :
    s.queuedCount p ≠ 0 ↔ ∃ l, ∃ j ∈ (s.lane l).queue, p j = true := by
  simp [State.queuedCount, sum_upTo, List.countP_eq_zero]

theorem flightCount_ne_zero_iff (s : State) (p : Job → Bool) :
    s.flightCount p ≠ 0 ↔ ∃ l, ((s.lane l).flight.any fun f => p f.job) = true := by
  simp only [State.flightCount, ne_eq, List.countP_eq_zero, not_forall, not_not]
  refine exists_congr fun l => (exists_prop_of_true (List.mem_finRange l)).trans ?_
  cases (s.lane l).flight <;> rfl

theorem foldl_upTo_four {α : Type} (f : α → Fin 4 → α) (a : α) : (upTo 4).foldl f a = f (f (f (f a 0) 1) 2) 3 := rfl

/-! ## Adoption (R122, R124) -/

theorem lastWritten_none {reg : Half} {writes : List (Half × Val)} (h : ∀ w ∈ writes, w.1 ≠ reg) :
    lastWritten reg writes = none := by
  have empty : writes.filter (fun w => w.1 == reg) = [] := List.filter_eq_nil_iff.2 fun w hw => by simp [h w hw]
  rw [lastWritten, empty]
  rfl

theorem lastWritten_last {reg : Half} {front back : List (Half × Val)} (v : Val) (h : ∀ w ∈ back, w.1 ≠ reg) :
    lastWritten reg (front ++ (reg, v) :: back) = some v := by
  have empty : back.filter (fun w => w.1 == reg) = [] := List.filter_eq_nil_iff.2 fun w hw => by simp [h w hw]
  simp [lastWritten, List.filter_append, empty]

theorem overtakes_iff (s : State) (n : Fin 4) :
    s.overtakes n = true ↔ (s.loop n).cycle = .output ∧
      ((∃ l, ∃ j ∈ (s.lane l).queue, j.writeOfLoop n = true) ∨
        ∃ l, ((s.lane l).flight.any fun f => f.job.outputOfLoop n) = true) := by
  simp only [State.overtakes, Bool.and_eq_true, beq_iff_eq, Bool.or_eq_true, bne_iff_ne, queuedCount_ne_zero_iff,
    flightCount_ne_zero_iff]

/-- A loop that runs takes the last write to its output register, and marks its cycle when it overtakes it (R122, R124). -/
theorem adopt_taken {s : State} {n : Fin 4} {t : Fin 16} {writes : List (Half × Val)} {v : Val}
    (run : (s.loop n).state.running = true) (target : (s.loop n).cfg.outTarget = t)
    (value : lastWritten (s.loop n).cfg.outReg writes = some v) :
    s.adopt t writes n =
      s.setLoop n { s.loop n with output := v, state := .tracking, stale := (s.loop n).stale || s.overtakes n } := by
  simp only [State.adopt, value, run, target, and_self, if_true]

/-! ## Edges (R112) -/

section
variable {s : State} {line : Line} {n : Fin 4}

theorem loopEdge_passed (h : (s.loop n).cfg.line ≠ line ∨ (s.loop n).state.running = false) : s.loopEdge line n = s := by
  refine if_neg fun ⟨same, run⟩ => ?_
  rcases h with other | rest
  · exact other same
  · exact Bool.false_ne_true (rest.symm.trans run)

/-- A loop that runs counts an edge of its line, or its period is up (R112). -/
theorem loopEdge_own (same : (s.loop n).cfg.line = line) (run : (s.loop n).state.running = true) :
    s.loopEdge line n =
      if (s.loop n).edgeCount + 1 < (s.loop n).cfg.period.toNat then
        s.setLoop n { s.loop n with edgeCount := (s.loop n).edgeCount + 1 }
      else if (s.loop n).cycle = .none then
        (s.setLoop n { s.loop n with edgeCount := 0, cycle := .measure, jobsOut := 1 }).appendJob
          (s.target (s.loop n).cfg.measTarget).cfg.lane
          (.loop n .measure (s.loop n).cfg.measTarget (s.loop n).cfg.measReg 0#32)
      else s.setLoop n { s.loop n with edgeCount := 0, skipSeen := true } :=
  if_pos ⟨same, run⟩

end

/-- Settles O44: the adoption by the last write to the loop's register, the edge by the loop's period and cycle. -/
theorem loopTakesEdgesAndWrites : Obligations.LoopTakesEdgesAndWrites := by
  refine ⟨fun s n => ⟨fun t writes => ⟨fun untaken => ?untaken, fun front v back split last run target => ?taken⟩,
    fun v => rfl⟩, fun s line t writes => ⟨foldl_upTo_four .., foldl_upTo_four ..⟩, fun s line n =>
    ⟨loopEdge_passed, fun same run => ⟨fun early => ?counted, fun due => ⟨fun free => ?due, fun busy => ?lost⟩⟩⟩⟩
  case untaken =>
    refine adopt_untaken (untaken.imp_right fun h => ?_)
    rcases h with other | unwritten
    · exact if_neg (Ne.symm other)
    · rw [LoopEntry.offer, lastWritten_none unwritten, ite_self]
  case taken =>
    rw [adopt_taken run target (by rw [split]; exact lastWritten_last v last)]
    refine congrArg (fun b => s.setLoop n { s.loop n with output := v, state := .tracking, stale := (s.loop n).stale || b }) ?_
    exact Bool.eq_iff_iff.2 ((overtakes_iff s n).trans (decide_eq_true_iff ..).symm)
  case counted => rw [loopEdge_own same run, if_pos early]
  case due => rw [loopEdge_own same run, if_neg (Nat.not_lt.2 due), if_pos free]
  case lost => rw [loopEdge_own same run, if_neg (Nat.not_lt.2 due), if_neg busy]

end Sys2Proof.Machine
end

section
/-! SUPPORT. What the store can do to the array, to the guards of the slots and to the array work under way, said once
(`StoreMove`): every operation of the store is a run of such moves. -/

namespace Sys2Proof.Machine

/-! ## The array outside what is written -/

namespace Memory

/-- A write leaves every other byte as it was, whatever the form of the array. -/
theorem read_write_other (m : List Host.Cell) {a x : Nat} (b : Byte) (hx : x ≠ a) : read (write m a b) x = read m x := by
  induction m with
  | nil => by_cases h : b = 0xFF#8 <;> simp [write, read, h, hx.symm]
  | cons c m ih =>
    unfold write
    split_ifs with h1 h2 h3 h4
    · rfl
    · simp [read, hx.symm]
    · have : c.1 ≠ x := fun e => hx (e.symm.trans h3.symm)
      simp [read, this]
    · have : c.1 ≠ x := fun e => hx (e.symm.trans h3.symm)
      simp [read, this, hx.symm]
    · simp only [read, ih]

theorem read_programAll_other (m : List Host.Cell) (a : Nat) (l : List Byte) {x : Nat}
    (hx : x < a ∨ a + l.length ≤ x) : read (programAll m a l) x = read m x := by
  induction l generalizing m a with
  | nil => rfl
  | cons b l ih =>
    simp only [List.length_cons] at hx
    rw [programAll, ih _ _ (by omega), program, read_write_other _ _ (by omega)]

/-- Cells dropped at other addresses leave a byte as it was. -/
theorem read_filter_other (m : List Host.Cell) {p : Host.Cell → Bool} {x : Nat} (hp : ∀ c ∈ m, c.1 = x → p c = true) :
    read (m.filter p) x = read m x := by
  induction m with
  | nil => rfl
  | cons c m ih =>
    have ih := ih fun d hd => hp d (List.mem_cons_of_mem c hd)
    by_cases h : p c = true
    · simp only [List.filter_cons, if_pos h, read, ih]
    · have : c.1 ≠ x := fun e => h (hp c List.mem_cons_self e)
      simp only [List.filter_cons, if_neg h, read, if_neg this, ih]

theorem read_eraseUnit_other (m : List Host.Cell) {u x : Nat} (hx : x / Config.unitBytes ≠ u) :
    read (eraseUnit m u) x = read m x :=
  read_filter_other m fun c _ e => by simpa [e] using hx

theorem read_residue_other (m : List Host.Cell) {u x : Nat} (l : List (Nat × Byte)) (hx : x / Config.unitBytes ≠ u) :
    read (residue m u l) x = read m x := by
  induction l generalizing m with
  | nil => rfl
  | cons c l ih =>
    rw [residue, ih]
    split_ifs with hc
    · refine read_write_other _ _ ?_
      rintro rfl
      simp only [unitBase, Config.unitBytes] at hx hc
      omega
    · rfl

theorem read_eraseFailed_other (m : List Host.Cell) {u x : Nat} (l : List (Nat × Byte))
    (hx : x / Config.unitBytes ≠ u) : read (eraseFailed m u l) x = read m x := by
  have h (l) : read (residue (eraseUnit m u) u l) x = read m x :=
    (read_residue_other _ l hx).trans (read_eraseUnit_other m hx)
  unfold eraseFailed
  simp only
  split_ifs
  · exact h _
  · rw [read_write_other, h]
    rintro rfl
    simp only [unitBase, Config.unitBytes] at hx
    omega
  · exact h _

theorem read_clearMarker_other (m : List Host.Cell) {u x : Nat} (hx : x / Config.unitBytes ≠ u) :
    read (clearMarker m u) x = read m x := by
  refine read_programAll_other m _ _ ?_
  simp only [unitBase, Config.unitBytes, List.length_cons, List.length_nil] at hx ⊢
  omega

/-- A page program stays inside its page. -/
theorem read_programPage_other (m : List Host.Cell) {u x : Nat} {p : Fin 16} {l : List Byte}
    (hl : l.length ≤ Config.pageBytes) (hx : x / Config.pageBytes ≠ u * 16 + p.val) :
    read (programAll m (pageBase u p.val) l) x = read m x := by
  refine read_programAll_other m _ _ ?_
  simp only [pageBase, unitBase, Config.unitBytes, Config.pageBytes] at hl hx ⊢
  omega

end Memory

/-! ## Array work under way -/

/-- The erase or the program under way, in progress or suspended (R149). -/
def Engine.arrayWork : Engine → Option Suspended
  | .erasing w => some (.erase w)
  | .programming w pages => some (.program w pages)
  | .suspendedErase w => some (.erase w)
  | .suspendedProgram w pages => some (.program w pages)
  | .readingUnderSuspend _ x => some x
  | .idle => none
  | .reading _ => none
  | .fusing _ _ => none

/-- The work of an erase or a program. -/
def Suspended.work : Suspended → Work
  | .erase w => w
  | .program w _ => w

theorem Engine.eraseWork_eq_some {e : Engine} {w : Work} :
    e.eraseWork = some w ↔ e.arrayWork = some (.erase w) := by
  cases e with
  | readingUnderSuspend op x => cases x <;> simp [Engine.eraseWork, Engine.arrayWork]
  | _ => simp [Engine.eraseWork, Engine.arrayWork]

theorem Engine.programWork_eq_some {e : Engine} {w : Work} {pages : List (Fin 16)} :
    e.programWork = some (w, pages) ↔ e.arrayWork = some (.program w pages) := by
  cases e with
  | readingUnderSuspend op x => cases x <;> simp [Engine.programWork, Engine.arrayWork]
  | _ => simp [Engine.programWork, Engine.arrayWork]

theorem Engine.work_eq_some {e : Engine} {op : StoreOp} :
    e.work = some op ↔ ∃ x, e.arrayWork = some x ∧ x.work.op = op := by
  cases e with
  | readingUnderSuspend op x => cases x <;> simp [Engine.work, Engine.arrayWork, Suspended.work]
  | _ => simp [Engine.work, Engine.arrayWork, Suspended.work]

/-- What the array holds while an erase is under way (R130), and while a program is (R154). -/
def Suspended.ready (m : List Host.Cell) : Suspended → Prop
  | .erase w =>
    Memory.readAll m (unitBase w.op.unit) 4 = [0#8, 0#8, 0#8, 0#8] ∧
      ((∃ i, w.op.kind = .erase i) ∨ valAt w.image 0 = markerOf w.op.unit)
  | .program w pages =>
    Memory.readAll m (unitBase w.op.unit) Config.pageBytes = List.replicate Config.pageBytes 0xFF#8 ∧
      pages.getLast? = some 0 ∧ 0 ∉ pages.dropLast ∧ valAt w.image 0 = markerOf w.op.unit

theorem workLaw_iff (s : State) : s.workLaw ↔ ∀ x, s.psc.engine.arrayWork = some x → x.ready s.nv.mem := by
  constructor
  · rintro ⟨he, hp⟩ (w | ⟨w, pages⟩) hx
    · exact he w (Engine.eraseWork_eq_some.2 hx)
    · exact hp (w, pages) (Engine.programWork_eq_some.2 hx)
  · intro h
    exact ⟨fun w hw => h _ (Engine.eraseWork_eq_some.1 hw), fun x hx => h _ (Engine.programWork_eq_some.1 hx)⟩

/-! ## Moves of the store -/

/-- Whether the part takes events, and where its start stands. -/
def State.standing (s : State) : Bool × Phase × Stage := (s.live, s.suc.phase, s.suc.stage)

/-- Every slot keeps `locked`, and a locked one its protection. -/
structure State.GuardsKept (s t : State) : Prop where
  locked : ∀ i, (t.slot i).isLocked = (s.slot i).isLocked
  guarded : ∀ i, (s.slot i).isLocked = true → (s.slot i).isProtected = true → (t.slot i).isProtected = true

/-- What a move of the store does to the array, to the guards, and to the array work under way. -/
inductive StoreChange (s t : State) : Prop
  /-- The array and the work under way stay: requests, replies, reads, suspensions. -/
  | serves (nv : t.nv = s.nv) (guards : s.GuardsKept t) (work : t.psc.engine.arrayWork = s.psc.engine.arrayWork)
  /-- Array work starts, with the marker clear (R130, R143). -/
  | begins (w : Work) (nv : t.nv = { s.nv with mem := Memory.clearMarker s.nv.mem w.op.unit })
      (guards : s.GuardsKept t) (engine : t.psc.engine = .erasing w)
      (free : w.op.kind = .setupSave ∨ ∃ i, w.op.slotWorked = some i ∧ (s.slot i).isLocked = false)
      (image : (∃ i, w.op.kind = .erase i) ∨ valAt w.image 0 = markerOf w.op.unit)
  /-- An erase or a page program ends: the work is over, or its next pages follow (R154). -/
  | writes (x : Suspended) (m : List Host.Cell) (working : s.psc.engine.arrayWork = some x)
      (nv : t.nv = { s.nv with mem := m }) (wf : Memory.wf s.nv.mem → Memory.wf m)
      (outside : ∀ a, a / Config.unitBytes ≠ x.work.op.unit → Memory.read m a = Memory.read s.nv.mem a)
      (guards : s.GuardsKept t)
      (after : t.psc.engine.arrayWork = none ∨ ∃ pages, t.psc.engine.arrayWork = some (.program x.work pages) ∧
        (Memory.wf s.nv.mem → x.ready s.nv.mem → Suspended.ready m (.program x.work pages)))
  /-- A lock bit is set (R131, R165). -/
  | fuses (i : Fin 32) (nv : t.nv = { s.nv with locks := s.nv.locks.set i true })
      (guard : (t.slot i).isLocked = true ∧ (t.slot i).isProtected = true)
      (others : ∀ j, j ≠ i → t.slot j = s.slot j)
      (work : s.psc.engine.arrayWork = none ∧ t.psc.engine.arrayWork = none)

/-- A move of the store leaves the start as it stands. -/
structure StoreMove (s t : State) : Prop where
  standing : t.standing = s.standing
  change : StoreChange s t

/-- A run of moves of the store. -/
abbrev State.Stored (s t : State) : Prop := Relation.ReflTransGen StoreMove s t

theorem Stored.standing {s t : State} (h : s.Stored t) : t.standing = s.standing := by
  induction h with
  | refl => rfl
  | tail _ h ih => exact h.standing.trans ih

theorem guardsKept_of_slot {s t : State} (h : ∀ i, t.slot i = s.slot i) : s.GuardsKept t :=
  ⟨fun i => by rw [h i], fun i _ hp => by rw [h i]; exact hp⟩

theorem guardsKept_of_dir {s t : State} (h : t.psc.dir = s.psc.dir) : s.GuardsKept t :=
  guardsKept_of_slot fun i => by simp only [State.slot, h]

theorem guardsKept_setMem (s : State) (m : List Host.Cell) : s.GuardsKept (s.setMem m) := guardsKept_of_dir rfl

theorem guardsKept_setEngine (s : State) (e : Engine) : s.GuardsKept (s.setEngine e) := guardsKept_of_dir rfl

theorem State.GuardsKept.trans {s t u : State} (h : s.GuardsKept t) (h' : t.GuardsKept u) : s.GuardsKept u where
  locked i := (h'.locked i).trans (h.locked i)
  guarded i hl hp := h'.guarded i ((h.locked i).trans hl) (h.guarded i hl hp)

/-- A slot that takes a directory state keeps its guards (R137). -/
theorem guardsKept_setSlotState (s : State) (i : Fin 32) (x : SlotState) : s.GuardsKept (s.setSlotState i x) := by
  have entry (j : Fin 32) : ((s.setSlotState i x).slot j).isLocked = (s.slot j).isLocked ∧
      ((s.setSlotState i x).slot j).isProtected = (s.slot j).isProtected := by
    rw [State.setSlotState, State.slot_setSlot]
    split_ifs with h
    · subst h
      exact ⟨rfl, rfl⟩
    · exact ⟨rfl, rfl⟩
  exact ⟨fun j => (entry j).1, fun j _ hp => (entry j).2.trans hp⟩

theorem guardsKept_setOpSlot (s : State) (op : StoreOp) (x : SlotState) : s.GuardsKept (s.setOpSlot op x) := by
  unfold State.setOpSlot
  split
  case h_4 => exact guardsKept_of_slot fun _ => rfl
  all_goals exact guardsKept_setSlotState s _ x

/-- The array, the engine, and what lies outside the store stay as they are where a slot's state changes. -/
theorem setOpSlot_frame (s : State) (op : StoreOp) (x : SlotState) :
    (s.setOpSlot op x).nv = s.nv ∧ (s.setOpSlot op x).psc.engine = s.psc.engine ∧
      (s.setOpSlot op x).standing = s.standing := by
  unfold State.setOpSlot
  split <;> exact ⟨rfl, rfl, rfl⟩

/-! ## What leaves the store alone -/

theorem psc_of_outside {s t : State} (h : t.outside = s.outside) : t.psc = s.psc := congrArg (·.2.1) h

theorem nv_of_outside {s t : State} (h : t.outside = s.outside) : t.nv = s.nv := congrArg (·.2.2.2.1) h

theorem suc_of_outside {s t : State} (h : t.outside = s.outside) : t.suc = s.suc := congrArg (·.2.2.1) h

theorem standing_of_outside {s t : State} (h : t.outside = s.outside) : t.standing = s.standing := by
  have hp : t.pins = s.pins := congrArg Prod.fst h
  simp only [State.standing, State.live, hp, suc_of_outside h]

theorem outside_replyTo (s : State) (op : StoreOp) (st : Status) (r : List Byte) :
    (s.replyTo op st r).outside = s.outside := by
  unfold State.replyTo
  split <;> rfl

theorem outside_release (s : State) (g : Fin 8) : (s.release g).outside = s.outside := by
  unfold State.release
  split_ifs <;> rfl

theorem outside_reserve (s : State) (g : Fin 8) : (s.reserve g).outside = s.outside := by
  unfold State.reserve
  split_ifs <;> rfl

theorem outside_unpin (s : State) (g : Fin 8) : (s.unpin g).outside = s.outside := rfl

/-- The array and the work under way stay. -/
theorem stored_of_serves {s t : State} (standing : t.standing = s.standing) (nv : t.nv = s.nv)
    (guards : s.GuardsKept t) (work : t.psc.engine.arrayWork = s.psc.engine.arrayWork) : s.Stored t :=
  .single ⟨standing, .serves nv guards work⟩

theorem stored_of_outside {s t : State} (h : t.outside = s.outside) : s.Stored t :=
  stored_of_serves (standing_of_outside h) (nv_of_outside h) (guardsKept_of_dir (by rw [psc_of_outside h]))
    (by rw [psc_of_outside h])

/-- The queue and the marks of the store change. -/
theorem stored_of_psc {s : State} {p : Psc} (dir : p.dir = s.psc.dir)
    (work : p.engine.arrayWork = s.psc.engine.arrayWork) : s.Stored { s with psc := p } :=
  stored_of_serves rfl rfl (guardsKept_of_dir dir) work

/-! ## Starts (R153, R157, R160, R162, R164) -/

theorem slotGuard_none {s : State} {i : Fin 32} (h : s.slotGuard i = none) : (s.slot i).isLocked = false := by
  unfold State.slotGuard at h
  split_ifs at h with hl
  exact Bool.eq_false_iff.2 hl

theorem valAt_slotImage (l : List Record) (label : Label) : valAt (slotImage l label) 0 = slotMarker := by
  simp only [slotImage, slotHeader, List.append_assoc, valAt_valBytes]

theorem valAt_setupImage (s : State) : valAt (setupImage s) 0 = setupMarker := by
  simp only [setupImage, List.append_assoc, valAt_valBytes]

/-- The marker of a slot's unit. -/
theorem markerOf_slot (i : Fin 32) : markerOf i.val = slotMarker := by
  have := i.isLt
  simp only [markerOf, Config.setupUnit]
  rw [if_neg (by omega)]

/-- Array work starts for the setup area, or for a slot that is not locked (R143). -/
theorem stored_startErase (s : State) (w : Work)
    (free : w.op.kind = .setupSave ∨ ∃ i, w.op.slotWorked = some i ∧ (s.slot i).isLocked = false)
    (image : (∃ i, w.op.kind = .erase i) ∨ valAt w.image 0 = markerOf w.op.unit) : s.Stored (s.startErase w) := by
  obtain ⟨nv, -, standing⟩ := setOpSlot_frame (s.setMem (Memory.clearMarker s.nv.mem w.op.unit)) w.op .busy
  have guards : s.GuardsKept (s.startErase w) :=
    ((guardsKept_setMem s _).trans (guardsKept_setOpSlot _ w.op .busy)).trans (guardsKept_setEngine _ _)
  exact .single ⟨standing, .begins w nv guards rfl free image⟩

/-- The start of a chosen operation, from IDLE. -/
theorem stored_startOp (s : State) (op : StoreOp) (idle : s.psc.engine = .idle) : s.Stored (s.startOp op) := by
  have engine (e : Engine) (he : e.arrayWork = none) : s.Stored (s.setEngine e) :=
    stored_of_psc rfl (by rw [idle]; exact he)
  have refused (st) : s.Stored (s.replyTo op st) := stored_of_outside (outside_replyTo ..)
  unfold State.startOp
  split
  case h_1 => exact engine _ rfl
  case h_2 g i label hk =>
    refine (stored_of_outside (outside_unpin s g)).trans ?_
    split
    case h_1 => exact stored_of_outside (outside_replyTo ..)
    case h_2 hg =>
      refine stored_startErase _ _ (.inr ⟨i, ?_, slotGuard_none hg⟩) (.inr ?_)
      · simp only [State.capture, StoreOp.slotWorked, hk]
      · simp only [State.capture, StoreOp.unit, hk, valAt_slotImage, markerOf_slot]
  case h_3 i hk =>
    split
    case h_1 => exact refused _
    case h_2 hg =>
      exact stored_startErase s _ (.inr ⟨i, by simp only [StoreOp.slotWorked, hk], slotGuard_none hg⟩) (.inl ⟨i, hk⟩)
  case h_4 hk =>
    refine stored_startErase s _ (.inl hk) (.inr ?_)
    simp only [StoreOp.unit, hk, valAt_setupImage, markerOf, if_true]
  case h_5 =>
    split_ifs
    · exact refused _
    · exact engine _ rfl

theorem stored_choose (s : State) : s.Stored s.choose := by
  unfold State.choose
  generalize s.psc.queue.length = n
  induction n generalizing s with
  | zero => exact .refl
  | succ n ih =>
    simp only [State.chooseFrom]
    split
    case h_1 op idle _ =>
      have dequeued : s.Stored (s.dequeue op) := stored_of_psc rfl rfl
      exact (dequeued.trans (stored_startOp _ _ idle)).trans (ih _)
    case h_2 => exact .refl

theorem stored_judge (s : State) : s.Stored s.judge := by
  unfold State.judge
  split
  · split_ifs
    · exact stored_of_psc rfl rfl
    · exact .refl
  · exact .refl

theorem stored_accept (s : State) (k : StoreKind) (o : Option Byte) : s.Stored (s.accept k o) := by
  have queued : s.Stored { s with psc := { s.psc with
      queue := s.psc.queue ++ [⟨k, o, s.psc.accepted⟩], accepted := s.psc.accepted + 1 } } := stored_of_psc rfl rfl
  exact (queued.trans (stored_choose _)).trans (stored_judge _)

/-! ## Suspension (R166 to R169) -/

theorem arrayWork_resumed (x : Suspended) :
    (match x with | .erase w => Engine.erasing w | .program w pages => .programming w pages).arrayWork = some x := by
  cases x <;> rfl

/-- Under a suspension, what is suspended stays. -/
theorem chooseUnder_spec (s : State) (x : Suspended) :
    (s.chooseUnder x).standing = s.standing ∧ (s.chooseUnder x).nv = s.nv ∧
      (s.chooseUnder x).psc.dir = s.psc.dir ∧ (s.chooseUnder x).psc.engine.arrayWork = some x := by
  unfold State.chooseUnder
  split
  · exact ⟨rfl, rfl, rfl, rfl⟩
  · exact ⟨rfl, rfl, rfl, arrayWork_resumed x⟩

theorem stored_chooseUnder {s : State} {x : Suspended} (h : s.psc.engine.arrayWork = some x) :
    s.Stored (s.chooseUnder x) := by
  obtain ⟨standing, nv, dir, work⟩ := chooseUnder_spec s x
  exact stored_of_serves standing nv (guardsKept_of_dir dir) (work.trans h.symm)

theorem nextPages_spec (s : State) (w : Work) (pages : List (Fin 16)) :
    (s.nextPages w pages).standing = s.standing ∧ (s.nextPages w pages).nv = s.nv ∧
      (s.nextPages w pages).psc.dir = s.psc.dir ∧
      (s.nextPages w pages).psc.engine.arrayWork = some (.program w pages) := by
  unfold State.nextPages
  split_ifs
  · exact chooseUnder_spec _ _
  · exact ⟨rfl, rfl, rfl, rfl⟩

theorem stored_suspendEffect (s : State) : s.Stored (suspendEffect s) := by
  unfold suspendEffect
  split
  case h_1 w he =>
    split_ifs
    · exact .refl
    · obtain ⟨standing, nv, dir, work⟩ :=
        chooseUnder_spec { s with psc := { s.psc with suspending := false } } (.erase w)
      exact stored_of_serves standing nv (guardsKept_of_dir dir) (by rw [he]; exact work)
    · exact stored_of_psc rfl (by rw [he])
  case h_2 => exact .refl

theorem stored_resumeGuardExpiry (s : State) : s.Stored (resumeGuardExpiry s) := by
  unfold resumeGuardExpiry
  split_ifs
  · have stopped : s.Stored { s with psc := { s.psc with guard := false } } := stored_of_psc rfl rfl
    exact stopped.trans (stored_judge _)
  · exact .refl

/-! ## Ends of operations (R154, R155, R157 to R165) -/

/-- The engine at IDLE, the guard cancelled, before it chooses (R150, R169). -/
def State.released (s : State) : State :=
  { s with psc := { s.psc with engine := .idle, guard := false, suspending := false } }

theorem engineFree_eq (s : State) : s.engineFree = s.released.choose := rfl

/-- The engine's release from a state without array work. -/
theorem stored_engineFree {s : State} (h : s.psc.engine.arrayWork = none) : s.Stored s.engineFree := by
  have released : s.Stored s.released := stored_of_psc rfl h.symm
  exact released.trans (stored_choose _)

/-- The engine is released from array work that leaves `m` in the array. -/
theorem stored_released {s u : State} {x : Suspended} {m : List Host.Cell} (working : s.psc.engine.arrayWork = some x)
    (standing : u.standing = s.standing) (nv : u.nv = { s.nv with mem := m }) (guards : s.GuardsKept u)
    (wf : Memory.wf s.nv.mem → Memory.wf m)
    (outside : ∀ a, a / Config.unitBytes ≠ x.work.op.unit → Memory.read m a = Memory.read s.nv.mem a) :
    s.Stored u.engineFree := by
  have ended : StoreMove s u.released :=
    ⟨standing, .writes x m working nv wf outside (guards.trans (guardsKept_of_dir rfl)) (.inl rfl)⟩
  exact Relation.ReflTransGen.head ended (stored_choose _)

/-- Array work goes on with the pages left. -/
theorem stored_nextPages {s : State} {x : Suspended} {m : List Host.Cell} {pages : List (Fin 16)}
    (working : s.psc.engine.arrayWork = some x) (wf : Memory.wf s.nv.mem → Memory.wf m)
    (outside : ∀ a, a / Config.unitBytes ≠ x.work.op.unit → Memory.read m a = Memory.read s.nv.mem a)
    (ready : Memory.wf s.nv.mem → x.ready s.nv.mem → Suspended.ready m (.program x.work pages)) :
    s.Stored ((s.setMem m).nextPages x.work pages) := by
  obtain ⟨standing, nv, dir, work⟩ := nextPages_spec (s.setMem m) x.work pages
  exact .single ⟨standing, .writes x m working nv wf outside (guardsKept_of_dir dir) (.inr ⟨pages, work, ready⟩)⟩

/-- Replies leave the guards and the rest of the store as they are. -/
theorem replyTo_frame (s : State) (op : StoreOp) (st : Status) (r : List Byte) :
    (s.replyTo op st r).nv = s.nv ∧ (s.replyTo op st r).psc = s.psc ∧ (s.replyTo op st r).standing = s.standing :=
  ⟨nv_of_outside (outside_replyTo ..), psc_of_outside (outside_replyTo ..), standing_of_outside (outside_replyTo ..)⟩

theorem guardsKept_replyTo (s : State) (op : StoreOp) (st : Status) (r : List Byte) :
    s.GuardsKept (s.replyTo op st r) := by
  obtain ⟨-, psc, -⟩ := replyTo_frame s op st r
  exact guardsKept_of_dir (by rw [psc])

/-- Array work ends with a store fault. -/
theorem stored_storeFault {s : State} {x : Suspended} {m : List Host.Cell} (b : Byte)
    (working : s.psc.engine.arrayWork = some x) (wf : Memory.wf s.nv.mem → Memory.wf m)
    (outside : ∀ a, a / Config.unitBytes ≠ x.work.op.unit → Memory.read m a = Memory.read s.nv.mem a) :
    s.Stored ((s.setMem m).storeFault x.work b) := by
  obtain ⟨nv, -, standing⟩ := setOpSlot_frame (s.setMem m) x.work.op .invalid
  obtain ⟨nv', -, standing'⟩ := replyTo_frame ((s.setMem m).setOpSlot x.work.op .invalid) x.work.op .storeFault [b]
  exact stored_released working (standing'.trans standing) (nv'.trans nv)
    (((guardsKept_setMem s m).trans (guardsKept_setOpSlot _ _ _)).trans (guardsKept_replyTo _ _ _ _)) wf outside

/-- Array work ends well: a slot may take a state, and the request is answered. -/
theorem stored_answered {s u : State} {x : Suspended} {m : List Host.Cell} {op : StoreOp} {st : Status} {r : List Byte}
    (working : s.psc.engine.arrayWork = some x) (hu : u = s.setMem m ∨ ∃ i y, u = (s.setMem m).setSlotState i y)
    (wf : Memory.wf s.nv.mem → Memory.wf m)
    (outside : ∀ a, a / Config.unitBytes ≠ x.work.op.unit → Memory.read m a = Memory.read s.nv.mem a) :
    s.Stored (u.replyTo op st r).engineFree := by
  obtain ⟨nv, -, standing⟩ := replyTo_frame u op st r
  have guards : s.GuardsKept u := by
    rcases hu with rfl | ⟨i, y, rfl⟩
    · exact guardsKept_of_dir rfl
    · exact (guardsKept_setMem s m).trans (guardsKept_setSlotState _ i y)
  have hnv : u.nv = { s.nv with mem := m } := by rcases hu with rfl | ⟨i, y, rfl⟩ <;> rfl
  have hst : u.standing = s.standing := by rcases hu with rfl | ⟨i, y, rfl⟩ <;> rfl
  exact stored_released working (standing.trans hst) (nv.trans hnv) (guards.trans (guardsKept_replyTo _ _ _ _)) wf outside

/-- Page 0 is the last page of an image, and appears once (R154). -/
theorem imagePages_last (image : List Byte) :
    (imagePages image).getLast? = some 0 ∧ 0 ∉ (imagePages image).dropLast := by
  unfold imagePages
  simp

/-- A verify that finds a unit erased has every byte of it read 0xFF (R130). -/
theorem read_of_unitErased {m : List Host.Cell} {u : Nat} (h : Memory.unitErased m u = true) {a : Nat}
    (ha : a / Config.unitBytes = u) : Memory.read m a = 0xFF#8 := by
  refine Memory.read_of_not_mem fun c hc e => ?_
  have := List.all_eq_true.1 h c hc
  simp [e, ha] at this

theorem readAll_eq_replicate {m : List Host.Cell} {a n : Nat} {b : Byte} (h : ∀ k < n, Memory.read m (a + k) = b) :
    Memory.readAll m a n = List.replicate n b := by
  refine List.eq_replicate_iff.2 ⟨Memory.length_readAll .., fun c hc => ?_⟩
  obtain ⟨k, hk⟩ := List.mem_iff_getElem?.1 hc
  rw [Memory.getElem?_readAll] at hk
  split_ifs at hk with hn
  rw [h k hn] at hk
  exact (Option.some.inj hk).symm

theorem stored_eraseComplete (s : State) (left : List (Nat × Byte)) : s.Stored (eraseComplete left s) := by
  unfold eraseComplete
  split
  case h_1 w he =>
    have working : s.psc.engine.arrayWork = some (.erase w) := by rw [he]; rfl
    simp only
    split_ifs with hf
    · exact stored_storeFault (x := .erase w) 0#8 working (fun h => Memory.wf_eraseFailed h _ _)
        fun a ha => Memory.read_eraseFailed_other _ left ha
    · have wf (h : Memory.wf s.nv.mem) := Memory.wf_residue (Memory.wf_eraseUnit h w.op.unit) w.op.unit left
      have outside (a : Nat) (ha : a / Config.unitBytes ≠ w.op.unit) :
          Memory.read (Memory.residue (Memory.eraseUnit s.nv.mem w.op.unit) w.op.unit left) a = Memory.read s.nv.mem a :=
        (Memory.read_residue_other _ left ha).trans (Memory.read_eraseUnit_other _ ha)
      split
      · exact stored_answered working (.inr ⟨_, _, rfl⟩) wf outside
      · rename_i hk
        refine stored_nextPages (x := .erase w) working wf outside fun _ hr => ?_
        obtain ⟨last, once⟩ := imagePages_last w.image
        refine ⟨readAll_eq_replicate fun k hlt => read_of_unitErased (by simpa using hf) ?_, last, once,
          hr.2.resolve_left fun ⟨i, hi⟩ => hk i hi⟩
        simp only [unitBase, Config.unitBytes, Config.pageBytes, Suspended.work] at hlt ⊢
        omega
  case h_2 => exact .refl

theorem stored_saveDone {s : State} {x : Suspended} {m : List Host.Cell} (working : s.psc.engine.arrayWork = some x)
    (wf : Memory.wf s.nv.mem → Memory.wf m)
    (outside : ∀ a, a / Config.unitBytes ≠ x.work.op.unit → Memory.read m a = Memory.read s.nv.mem a) :
    s.Stored ((s.setMem m).saveDone x.work) := by
  unfold State.saveDone
  split
  · exact stored_answered working (.inr ⟨_, _, rfl⟩) wf outside
  · exact stored_answered working (.inl rfl) wf outside

/-- A page other than page 0 does not reach page 0 of its unit. -/
theorem read_programPage_pageZero (m : List Host.Cell) {u : Nat} {p : Fin 16} {l : List Byte}
    (hl : l.length ≤ Config.pageBytes) (hp : p ≠ 0) {k : Nat} (hk : k < Config.pageBytes) :
    Memory.read (Memory.programAll m (pageBase u p.val) l) (unitBase u + k) = Memory.read m (unitBase u + k) := by
  have : p.val ≠ 0 := fun e => hp (Fin.ext e)
  refine Memory.read_programPage_other m hl ?_
  simp only [unitBase, Config.unitBytes, Config.pageBytes] at hk ⊢
  omega

theorem readAll_congr {m m' : List Host.Cell} {a n : Nat} (h : ∀ k < n, Memory.read m' (a + k) = Memory.read m (a + k)) :
    Memory.readAll m' a n = Memory.readAll m a n := by
  apply List.ext_getElem?
  intro k
  rw [Memory.getElem?_readAll, Memory.getElem?_readAll]
  split_ifs with hk
  · rw [h k hk]
  · rfl

/-- With pages left behind it, a page is not page 0 (R154). -/
theorem page_ne_zero {p : Fin 16} {pages : List (Fin 16)} (hne : pages ≠ []) (once : 0 ∉ (p :: pages).dropLast) : p ≠ 0 := by
  rw [List.dropLast_cons_of_ne_nil hne] at once
  exact fun e => once (e ▸ List.mem_cons_self)

theorem pages_left {p : Fin 16} {pages : List (Fin 16)} (hne : pages ≠ []) (last : (p :: pages).getLast? = some 0)
    (once : 0 ∉ (p :: pages).dropLast) : pages.getLast? = some 0 ∧ 0 ∉ pages.dropLast := by
  rw [List.dropLast_cons_of_ne_nil hne] at once
  refine ⟨?_, fun h => once (List.mem_cons_of_mem p h)⟩
  obtain ⟨q, l, rfl⟩ := List.exists_cons_of_ne_nil hne
  rwa [List.getLast?_cons_cons] at last

theorem stored_pageProgramComplete (s : State) (left : Option (List Byte)) :
    s.Stored (pageProgramComplete left s) := by
  unfold pageProgramComplete
  split
  case h_1 w p pages he =>
    have working : s.psc.engine.arrayWork = some (.program w (p :: pages)) := by rw [he]; rfl
    have hl : ((left.getD (imagePage w.image p.val)).take Config.pageBytes).length ≤ Config.pageBytes :=
      List.length_take_le ..
    simp only
    generalize (left.getD (imagePage w.image p.val)).take Config.pageBytes = l at hl
    have wf (h : Memory.wf s.nv.mem) := Memory.wf_programAll h (pageBase w.op.unit p.val) l
    have outside (a : Nat) (ha : a / Config.unitBytes ≠ w.op.unit) :
        Memory.read (Memory.programAll s.nv.mem (pageBase w.op.unit p.val) l) a = Memory.read s.nv.mem a := by
      refine Memory.read_programPage_other _ hl ?_
      have := p.isLt
      simp only [Config.unitBytes, Config.pageBytes] at ha ⊢
      omega
    split_ifs with hv hp
    · exact stored_storeFault (x := .program w (p :: pages)) _ working wf outside
    · exact stored_saveDone (x := .program w (p :: pages)) working wf outside
    · refine stored_nextPages (x := .program w (p :: pages)) working wf outside fun _ hr => ?_
      have hne : pages ≠ [] := fun e => hp (List.isEmpty_iff.2 e)
      obtain ⟨blank, last, once, marker⟩ := hr
      obtain ⟨last', once'⟩ := pages_left hne last once
      refine ⟨(readAll_congr fun k hk => ?_).trans blank, last', once', marker⟩
      exact read_programPage_pageZero _ hl (page_ne_zero hne once) hk
  case h_2 => exact .refl

theorem stored_fuseProgramComplete (s : State) (blown : Bool) : s.Stored (fuseProgramComplete blown s) := by
  unfold fuseProgramComplete
  split
  case h_1 op i he =>
    have none : s.psc.engine.arrayWork = none := by rw [he]; rfl
    simp only
    split_ifs with hb
    · rw [hb]
      generalize ht : State.setSlot _ i _ = t
      have hself : t.slot i = { s.slot i with isLocked := true, isProtected := true } := by
        rw [← ht, State.slot_setSlot_self]
        rfl
      have hother (j : Fin 32) (hj : j ≠ i) : t.slot j = s.slot j := by
        rw [← ht, State.slot_setSlot, if_neg hj.symm]
        rfl
      obtain ⟨nv, psc, standing⟩ := replyTo_frame t op .ok []
      have fused : StoreMove s (t.replyTo op .ok).released := by
        refine ⟨standing.trans (ht ▸ rfl), .fuses i (nv.trans (ht ▸ rfl)) ?_ ?_ ?_⟩
        · simp only [State.slot, State.released, psc]
          exact ⟨congrArg DirEntry.isLocked hself, congrArg DirEntry.isProtected hself⟩
        · intro j hj
          simp only [State.slot, State.released, psc]
          exact hother j hj
        · exact ⟨none, rfl⟩
      exact Relation.ReflTransGen.head fused (stored_choose _)
    · obtain ⟨hlock, -⟩ := Bool.or_eq_false_iff.1 (Bool.eq_false_iff.2 hb)
      have same : s.nv.locks.set i (s.nv.locks[i] || blown) = s.nv.locks := by
        rw [Bool.eq_false_iff.2 hb, ← hlock]
        exact Vector.set_getElem_self _
      rw [same]
      refine (stored_of_outside (outside_replyTo s op .storeFault [17#8])).trans (stored_engineFree ?_)
      obtain ⟨-, psc, -⟩ := replyTo_frame s op .storeFault [17#8]
      rw [psc, none]
  case h_2 => exact .refl

/-! ## Loads and cancellations (R157 to R159, R172) -/

theorem stored_loadEnd (s : State) (op : StoreOp) (i : Fin 32) (g : Fin 8) : s.Stored (s.loadEnd op i g) := by
  have slotted : s.Stored (s.setSlotState i (s.loadResult i).slotState) :=
    stored_of_serves rfl rfl (guardsKept_setSlotState s _ _) rfl
  refine slotted.trans (stored_of_outside ((outside_replyTo ..).trans ?_))
  unfold State.loadGroup
  split
  · split_ifs <;> rfl
  all_goals exact outside_release ..

theorem outside_cancelOp (s : State) (op : StoreOp) : (s.cancelOp op).outside = s.outside := by
  unfold State.cancelOp
  split
  · exact outside_replyTo ..
  · exact (outside_replyTo ..).trans (outside_release ..)
  all_goals rfl

theorem stored_stopLoad (s : State) : s.Stored s.stopLoad := by
  unfold State.stopLoad
  split
  case h_1 he => exact stored_of_psc rfl (by rw [he]; rfl)
  case h_2 x he => exact stored_of_psc rfl (by rw [he]; exact arrayWork_resumed x)
  case h_3 => exact .refl

theorem stored_cancelStore (s : State) : s.Stored s.cancelStore := by
  have queued : s.Stored (s.setQueue (s.psc.queue.filter fun op => !op.cancellable)) := stored_of_psc rfl rfl
  have cancelled : s.Stored (s.psc.cancelled.foldl State.cancelOp _) :=
    foldl_keeps (P := s.Stored) (fun t op h => h.trans (stored_of_outside (outside_cancelOp t op))) _ _ queued
  exact (cancelled.trans (stored_stopLoad _)).trans (stored_choose _)

end Sys2Proof.Machine
end

section
/-! SUPPORT. The requests of the groups, the targets, the lanes, the lines and the loops, and the events of the lanes, leave
the store, the start and the array alone. -/

namespace Sys2Proof.Machine

/-! ## Owners -/

section
variable (tag : Byte) (s : State)

theorem outside_answer (tag : Byte) (st : Status) (r : List Byte) : (s.answer tag st r).outside = s.outside := rfl

theorem outside_stopLoop (n : Fin 4) : (s.stopLoop n).outside = s.outside := (laneSide_outside s.outside).stopLoop rfl n

theorem outside_startLoop (n : Fin 4) : (s.startLoop n).outside = s.outside :=
  (laneSide_outside s.outside).startLoop rfl n

theorem outside_loopReset (n : Fin 4) : (s.loopReset n).outside = s.outside :=
  ((laneSide_outside s.outside).loop _ n _ (outside_stopLoop s n) :)

theorem outside_settleLanes_of {s t : State} (h : t.outside = s.outside) : t.settleLanes.outside = s.outside :=
  (settleLanes_outside t).trans h

theorem outside_ownGroupOpen (g : Byte) : (ownGroupOpen tag g s).outside = s.outside := by
  unfold ownGroupOpen
  repeat' split
  all_goals rfl

theorem outside_ownGroupAdd (g : Byte) (r : RawRecord) : (ownGroupAdd tag g r s).outside = s.outside := by
  unfold ownGroupAdd
  repeat' split
  all_goals rfl

theorem outside_ownGroupClose (g : Byte) : (ownGroupClose tag g s).outside = s.outside := by
  unfold ownGroupClose
  split
  · rfl
  · simp only
    split_ifs <;> rfl

theorem outside_ownGroupDrop (g : Byte) : (ownGroupDrop tag g s).outside = s.outside := by
  unfold ownGroupDrop
  split
  · rfl
  · simp only
    split_ifs <;> rfl

theorem outside_ownGroupEdit (g i : Byte) (v : List Val) : (ownGroupEdit tag g i v s).outside = s.outside := by
  unfold ownGroupEdit
  split
  · rfl
  · simp only
    split_ifs
    · rfl
    · repeat' split
      all_goals rfl

theorem outside_ownGroupQuery (g : Byte) : (ownGroupQuery tag g s).outside = s.outside := by
  unfold ownGroupQuery
  split <;> rfl

theorem outside_ownGroupRead (g f : Byte) : (ownGroupRead tag g f s).outside = s.outside := by
  unfold ownGroupRead
  split
  · rfl
  · simp only
    split_ifs <;> rfl

theorem outside_ownGroupArm (g l x m : Byte) : (ownGroupArm tag g l x m s).outside = s.outside := by
  unfold ownGroupArm
  repeat' split
  all_goals rfl

theorem outside_ownGroupDisarm (g : Byte) : (ownGroupDisarm tag g s).outside = s.outside := by
  unfold ownGroupDisarm
  repeat' split
  all_goals rfl

theorem outside_ownGroupApply (g : Byte) : (ownGroupApply tag g s).outside = s.outside := by
  unfold ownGroupApply
  split
  · rfl
  · split_ifs
    · rfl
    · exact outside_settleLanes_of ((laneSide_outside s.outside).launch rfl none _)

theorem outside_ownGroupAbort (g : Byte) : (ownGroupAbort tag g s).outside = s.outside := by
  unfold ownGroupAbort
  split
  · rfl
  · split_ifs
    · rfl
    · exact outside_settleLanes_of ((laneSide_outside s.outside).abort rfl tag _)

theorem outside_ownTargetSet (t : Byte) (r : RawTarget) : (ownTargetSet tag t r s).outside = s.outside := by
  unfold ownTargetSet
  repeat' split
  all_goals rfl

theorem outside_ownTargetQuery (t : Byte) : (ownTargetQuery tag t s).outside = s.outside := by
  unfold ownTargetQuery
  split <;> rfl

theorem outside_ownTargetClear (t : Byte) : (ownTargetClear tag t s).outside = s.outside := by
  unfold ownTargetClear
  split <;> rfl

theorem outside_ownTargetRead (t : Byte) (r : Half) : (ownTargetRead tag t r s).outside = s.outside := by
  unfold ownTargetRead
  split
  · rfl
  · simp only
    split_ifs
    · rfl
    · rfl
    · exact outside_settleLanes_of rfl

theorem outside_ownLaneSet (n : Byte) (r : RawLane) : (ownLaneSet tag n r s).outside = s.outside := by
  unfold ownLaneSet
  split
  · rfl
  · split
    · rfl
    · simp only
      split_ifs <;> rfl

theorem outside_ownLaneQuery (n : Byte) : (ownLaneQuery tag n s).outside = s.outside := by
  unfold ownLaneQuery
  split <;> rfl

theorem outside_setLine (l : Line) (x : SyncLine) : (s.setLine l x).outside = s.outside := by
  cases l <;> rfl

theorem outside_ownSyncSet (l e : Byte) (w : Half) : (ownSyncSet tag l e w s).outside = s.outside := by
  unfold ownSyncSet
  split
  · split_ifs
    · exact outside_setLine s _ _
    · rfl
  all_goals rfl

theorem outside_ownSyncPulse (l : Byte) : (ownSyncPulse tag l s).outside = s.outside := by
  unfold ownSyncPulse
  split
  · rfl
  · rename_i line _
    have made : (s.edgeMade line).outside = s.outside := (laneSide_outside s.outside).edgeMade rfl line
    generalize s.edgeMade line = t at made ⊢
    exact outside_settleLanes_of made

theorem outside_ownSyncQuery (l : Byte) : (ownSyncQuery tag l s).outside = s.outside := by
  unfold ownSyncQuery
  split <;> rfl

theorem outside_ownLoopSet (n : Byte) (r : RawLoop) : (ownLoopSet tag n r s).outside = s.outside := by
  unfold ownLoopSet
  repeat' split
  all_goals rfl

theorem outside_ownLoopStart (n : Byte) : (ownLoopStart tag n s).outside = s.outside := by
  unfold ownLoopStart
  split
  · rfl
  · split
    · rfl
    · exact outside_settleLanes_of ((outside_answer ..).trans (outside_startLoop s _))

theorem outside_ownLoopStop (n : Byte) : (ownLoopStop tag n s).outside = s.outside := by
  unfold ownLoopStop
  split
  · rfl
  · split_ifs
    · rfl
    · exact (outside_answer ..).trans (outside_stopLoop s _)

theorem outside_ownLoopQuery (n : Byte) : (ownLoopQuery tag n s).outside = s.outside := by
  unfold ownLoopQuery
  split <;> rfl

theorem outside_ownPartResetLanes : (ownPartResetLanes tag s).outside = s.outside :=
  (outside_answer ..).trans (cutLanes_outside s)

theorem outside_ownPartResetLoops : (ownPartResetLoops tag s).outside = s.outside :=
  (outside_answer ..).trans
    (foldl_keeps (P := fun t => t.outside = s.outside) (fun t n ht => (outside_loopReset t n).trans ht) (upTo 4) s rfl)

/-! ## Requests -/

variable {s}

/-- A request whose owner leaves the store alone leaves it alone. -/
theorem outside_request {own : State → State} (ho : ∀ u : State, (own u).outside = u.outside) (h : ReqHead) (c : Byte)
    (chk : Option Status) : (s.request h c chk own).outside = s.outside := by
  unfold State.request
  split_ifs
  · rfl
  · split
    · rfl
    · exact ho _

variable (s) (h : ReqHead) (c : Byte) (b : List Byte)

theorem outside_groupRequest : (groupRequest h c b s).outside = s.outside := by
  unfold groupRequest
  split
  · exact outside_request (fun u => outside_ownGroupOpen _ u _) _ _ _
  · exact outside_request (fun u => outside_ownGroupAdd _ u _ _) _ _ _
  · exact outside_request (fun u => outside_ownGroupClose _ u _) _ _ _
  · exact outside_request (fun u => outside_ownGroupDrop _ u _) _ _ _
  · exact outside_request (fun u => outside_ownGroupEdit _ u _ _ _) _ _ _
  · exact outside_request (fun u => outside_ownGroupQuery _ u _) _ _ _
  · exact outside_request (fun u => outside_ownGroupRead _ u _ _) _ _ _
  · exact outside_request (fun u => outside_ownGroupArm _ u _ _ _ _) _ _ _
  · exact outside_request (fun u => outside_ownGroupDisarm _ u _) _ _ _
  · exact outside_request (fun u => outside_ownGroupApply _ u _) _ _ _
  · exact outside_request (fun u => outside_ownGroupAbort _ u _) _ _ _
  · rfl

theorem outside_laneRequest : (laneRequest h c b s).outside = s.outside := by
  unfold laneRequest
  split
  · exact outside_request (fun u => outside_ownTargetSet _ u _ _) _ _ _
  · exact outside_request (fun u => outside_ownTargetQuery _ u _) _ _ _
  · exact outside_request (fun u => outside_ownTargetClear _ u _) _ _ _
  · exact outside_request (fun u => outside_ownTargetRead _ u _ _) _ _ _
  · exact outside_request (fun u => outside_ownLaneSet _ u _ _) _ _ _
  · exact outside_request (fun u => outside_ownLaneQuery _ u _) _ _ _
  · exact outside_request (fun u => outside_ownSyncSet _ u _ _ _) _ _ _
  · exact outside_request (fun u => outside_ownSyncPulse _ u _) _ _ _
  · exact outside_request (fun u => outside_ownSyncQuery _ u _) _ _ _
  · rfl

theorem outside_loopRequest : (loopRequest h c b s).outside = s.outside := by
  unfold loopRequest
  split
  · exact outside_request (fun u => outside_ownLoopSet _ u _ _) _ _ _
  · exact outside_request (fun u => outside_ownLoopStart _ u _) _ _ _
  · exact outside_request (fun u => outside_ownLoopStop _ u _) _ _ _
  · exact outside_request (fun u => outside_ownLoopQuery _ u _) _ _ _
  · rfl

end

/-! ## Events -/

theorem outside_filterSettled (s : State) (l : Line) : (filterSettled l s).outside = s.outside := by
  unfold filterSettled
  simp only
  split_ifs
  · exact (edge_outside _ l).trans (outside_setLine s l _)
  · exact outside_setLine s l _
  · rfl

theorem outside_gapExpired (s : State) : (gapExpired s).outside = s.outside := by
  unfold gapExpired
  split
  · split
    · split <;> rfl
    all_goals rfl
  · rfl

theorem outside_freed (s : State) : s.freed.outside = s.outside := by
  unfold State.freed
  simp only
  split_ifs <;> rfl

end Sys2Proof.Machine
end

section
/-! SUPPORT. Every way a command can change the store, the standing of the start, or the array, said once (`exec_moved`). -/

namespace Sys2Proof.Machine

/-! ## Moves of the part -/

/-- What the laws of the store speak of: whether the part takes events, where its start stands, the directory, the engine,
the queue, and the array. -/
def State.vault (s : State) : (Bool × Phase × Stage) × Table DirEntry 32 × Engine × List StoreOp × Nv :=
  (s.standing, s.psc.dir, s.psc.engine, s.psc.queue, s.nv)

/-- What a command does to the store, the start and the array, one move at a time. -/
inductive Move (s t : State) : Prop
  | beside (vault : t.vault = s.vault)
  /-- The store works: for a request, which needs RUNNING, for an event of its engine, or for the start. -/
  | store (live : s.live = true) (awake : s.suc.phase = .running ∨ s.suc.stage ≠ .rebuild ∨ s.psc.engine ≠ .idle)
      (moves : s.Stored t)
  /-- The start goes on; or a FULL reset is accepted. -/
  | start (live : t.live = s.live) (psc : t.psc = s.psc) (nv : t.nv = s.nv)
      (stage : (s.live = true ∧ s.suc.stage ≠ .rebuild ∧ t.suc.stage ≠ .rebuild) ∨
        (t.suc.stage = s.suc.stage ∧ t.suc.phase = .starting))
  /-- The directory has been read (R136). -/
  | rebuilt (live : t.live = s.live) (stage : s.suc.stage = .rebuild ∧ t.suc.stage ≠ .rebuild) (nv : t.nv = s.nv)
      (engine : t.psc.engine = s.psc.engine) (queue : t.psc.queue = s.psc.queue)
      (guards : ∀ i, (t.slot i).isProtected = true ∧ (t.slot i).isLocked = s.nv.locks[i])
  /-- A start begins, or the part is held: array work is abandoned (R173, R178). -/
  | reset (k : Nat) (nv : t.nv = s.nv.abandoned s.psc.engine k) (store : t.psc.engine = .idle ∧ t.psc.queue = [])
      (guards : ∀ i, (t.slot i).isProtected = true)
      (stage : (t.suc.stage = .rebuild ∧ t.suc.phase = .starting) ∨ (t.live = false ∧ t.suc.stage ≠ .rebuild))

/-- A run of moves. -/
abbrev State.Moved (s t : State) : Prop := Relation.ReflTransGen Move s t

theorem moved_of_vault {s t : State} (h : t.vault = s.vault) : s.Moved t := .single (.beside h)

theorem vault_of_outside {s t : State} (h : t.outside = s.outside) : t.vault = s.vault := by
  simp only [State.vault, standing_of_outside h, psc_of_outside h, nv_of_outside h]

theorem moved_of_outside {s t : State} (h : t.outside = s.outside) : s.Moved t := moved_of_vault (vault_of_outside h)

/-! ## The start (R171, R178 to R184) -/

/-- A part past the rebuild. -/
def State.pastRebuild (s : State) : Prop := s.live = true ∧ s.suc.stage ≠ .rebuild

theorem pastRebuild_of_standing {s t : State} (h : t.standing = s.standing) (hs : s.pastRebuild) : t.pastRebuild := by
  simp only [State.standing, Prod.mk.injEq] at h
  obtain ⟨hl, -, hst⟩ := h
  simpa only [State.pastRebuild, hl, hst] using hs

theorem moved_of_stored {s t : State} (hs : s.pastRebuild) (h : s.Stored t) : s.Moved t :=
  .single (.store hs.1 (.inr (.inl hs.2)) h)

/-- The start goes on from a part past the rebuild. -/
theorem moved_suc {s : State} (hs : s.pastRebuild) (x : Suc) (hx : x.stage ≠ .rebuild) : s.Moved { s with suc := x } :=
  .single (.start rfl rfl rfl (.inl ⟨hs.1, hs.2, hx⟩))

theorem moved_finishStart {s : State} (hs : s.pastRebuild) (r : StartResult) : s.Moved (s.finishStart r) :=
  .single (.start rfl rfl rfl (.inl ⟨hs.1, hs.2, nofun⟩))

theorem moved_startLoaded {s : State} (hs : s.pastRebuild) (e : LoadEnd) :
    s.Moved (s.startLoaded e) ∧ (s.startLoaded e).pastRebuild ∧ (s.startLoaded e).psc.engine = s.psc.engine := by
  have due (t : State) (ht : t.outside = s.outside) (r : StartResult) :
      s.Moved (t.lastStepDue r) ∧ (t.lastStepDue r).pastRebuild ∧ (t.lastStepDue r).psc.engine = s.psc.engine := by
    have past := pastRebuild_of_standing (standing_of_outside ht) hs
    exact ⟨(moved_of_outside ht).trans (moved_suc past _ nofun), ⟨past.1, nofun⟩,
      (congrArg Psc.engine (psc_of_outside ht) :)⟩
  have armed (d : Designation) : (s.armStart d).outside = s.outside := by
    unfold State.armStart
    split_ifs <;> rfl
  unfold State.startLoaded
  split
  · exact due _ (armed _) _
  all_goals exact due s rfl _

theorem moved_startStep {s : State} (hs : s.pastRebuild) (e : LoadEnd) :
    s.Moved (s.startStep e) ∧ (s.startStep e).pastRebuild ∧ (s.startStep e).psc.engine = s.psc.engine := by
  obtain ⟨moved, past, engine⟩ := moved_startLoaded hs e
  rcases State.startStep_cases s e with h | h <;> rw [h]
  · exact ⟨moved, past, engine⟩
  · unfold State.lastStep
    split
    · exact ⟨moved.trans (moved_finishStart past _), ⟨past.1, nofun⟩, engine⟩
    all_goals exact ⟨moved, past, engine⟩

theorem loadEnd_engine (s : State) (op : StoreOp) (i : Fin 32) (g : Fin 8) :
    (s.loadEnd op i g).psc.engine = s.psc.engine := by
  have grouped (t : State) (e : LoadEnd) : (t.loadGroup g e).outside = t.outside := by
    unfold State.loadGroup
    split
    · split_ifs <;> rfl
    all_goals exact outside_release ..
  have ended := (outside_replyTo _ op (s.loadResult i).status ((s.loadResult i).result i)).trans
    (grouped (s.setSlotState i (s.loadResult i).slotState) (s.loadResult i))
  have engine := congrArg Psc.engine (psc_of_outside ended)
  exact engine

/-- A load's end, with the steps of the start for the start's own: the engine stays, and where the start has gone on the
part is past the rebuild. -/
theorem moved_loadOver {s : State} (live : s.live = true) (op : StoreOp) :
    (s.loadOver op).psc.engine = s.psc.engine ∧
      (s.Stored (s.loadOver op) ∨ s.Moved (s.loadOver op) ∧ (s.loadOver op).pastRebuild) := by
  unfold State.loadOver
  split
  case h_1 i g hk =>
    have loaded := stored_loadEnd s op i g
    simp only
    split_ifs with hi
    · have past : s.pastRebuild := ⟨live, by rw [hi.2]; nofun⟩
      have past' := pastRebuild_of_standing (Stored.standing loaded) past
      obtain ⟨moved, past'', engine⟩ := moved_startStep past' (s.loadResult i)
      exact ⟨engine.trans (loadEnd_engine s op i g), .inr ⟨(moved_of_stored past loaded).trans moved, past''⟩⟩
    · exact ⟨loadEnd_engine s op i g, .inl loaded⟩
  all_goals exact ⟨rfl, .inl .refl⟩

theorem moved_imageReadComplete {s : State} (live : s.live = true) : s.Moved (imageReadComplete s) := by
  have ends {t : State} (u : State) (busy : s.psc.engine ≠ .idle) (h : s.Stored t ∨ s.Moved t ∧ t.pastRebuild)
      (hu : t.Stored u) : s.Moved u := by
    rcases h with stored | ⟨moved, past⟩
    · exact .single (.store live (.inr (.inr busy)) (stored.trans hu))
    · exact moved.trans (moved_of_stored past hu)
  unfold imageReadComplete
  split
  case h_1 op he =>
    obtain ⟨engine, h⟩ := moved_loadOver live op
    exact ends _ (by rw [he]; nofun) h (stored_engineFree (by rw [engine, he]; rfl))
  case h_2 op x he =>
    obtain ⟨engine, h⟩ := moved_loadOver live op
    exact ends _ (by rw [he]; nofun) h (stored_chooseUnder (by rw [engine, he]; rfl))
  case h_3 => exact .refl

theorem moved_autostart (s : State) (n : Fin 4) : s.Moved (s.autostart n) := by
  unfold State.autostart
  split_ifs
  · split
    · exact moved_of_vault rfl
    · exact (moved_of_outside (outside_startLoop s n)).trans (moved_of_vault rfl)
  · exact moved_of_vault rfl

/-- The start load: queued for the store, or the end of the start (R171, R183). -/
theorem moved_startLoad {s : State} (hs : s.pastRebuild) : s.Moved s.startLoad := by
  unfold State.startLoad
  split
  · have reserved := outside_reserve s 0
    have past := pastRebuild_of_standing (standing_of_outside reserved) hs
    have loading := moved_suc past { s.suc with stage := .load } nofun
    have accepted : State.pastRebuild { s.reserve 0 with suc := { s.suc with stage := .load } } := ⟨past.1, nofun⟩
    exact ((moved_of_outside reserved).trans loading).trans (moved_of_stored accepted (stored_accept ..))
  · exact moved_finishStart hs _

theorem pastRebuild_of_outside {s t : State} (h : t.outside = s.outside) (hs : s.pastRebuild) : t.pastRebuild :=
  pastRebuild_of_standing (standing_of_outside h) hs

theorem autostart_pastRebuild {s : State} (n : Fin 4) (hs : s.pastRebuild) : (s.autostart n).pastRebuild := by
  have started := pastRebuild_of_outside (outside_startLoop s n) hs
  unfold State.autostart
  split_ifs
  · split
    · exact hs
    · exact started
  · exact hs

theorem vault_applySetup (s : State) (x : Setup) : (s.applySetup x).vault = s.vault := by
  simp only [State.vault, State.standing, State.live, State.applySetup]

/-- The loops that are marked start, then the load, and the lanes settle (R182, R183). -/
theorem moved_fromSetup {s t : State} (h : s.Moved t) (past : t.pastRebuild) :
    s.Moved ((upTo 4).foldl State.autostart t).startLoad.settleLanes := by
  have loops : s.Moved ((upTo 4).foldl State.autostart t) ∧ ((upTo 4).foldl State.autostart t).pastRebuild :=
    foldl_keeps (P := fun t => s.Moved t ∧ t.pastRebuild)
      (fun t n h => ⟨h.1.trans (moved_autostart t n), autostart_pastRebuild n h.2⟩) (upTo 4) t ⟨h, past⟩
  generalize (upTo 4).foldl State.autostart t = u at loops
  obtain ⟨moved, past'⟩ := loops
  exact (moved.trans (moved_startLoad past')).trans (moved_of_outside (settleLanes_outside _))

theorem moved_setupAreaRead {s : State} (live : s.live = true) : s.Moved (setupAreaRead s) := by
  unfold setupAreaRead
  split_ifs with hst
  · have past : s.pastRebuild := ⟨live, by rw [hst]; nofun⟩
    generalize readSetup s.nv.mem = x
    obtain ⟨a, y⟩ := x
    cases y with
    | none => exact moved_fromSetup (moved_of_vault rfl) past
    | some x =>
      have vault := vault_applySetup (s.setSetup a) x
      exact moved_fromSetup (moved_of_vault vault) (pastRebuild_of_standing (congrArg Prod.fst vault) past)
  · exact .refl

/-! ## Resets (R173, R178, R187) -/

theorem reset_protected (i : Fin 32) : Psc.reset.dir[i] = ⟨.blank, true, false⟩ := by
  simp [Psc.reset]

theorem fuseRead_slot (s : State) (i : Fin 32) : s.fuseRead.slot i = { s.slot i with isLocked := s.nv.locks[i] } := by
  simp [State.fuseRead, State.slot]

/-- A start begins, with the pins as they then stand. -/
theorem moved_beginStart (s : State) (p : Pins) (c : Cause) (straps : Straps) :
    s.Moved (State.beginStart { s with pins := p } c straps) := by
  refine .single (.reset s.fresh rfl ⟨rfl, rfl⟩ (fun i => ?_) (.inl ⟨rfl, rfl⟩))
  rw [State.beginStart, fuseRead_slot]
  exact congrArg DirEntry.isProtected (reset_protected i)

/-- The part is held, without its supply or with RESETn low. -/
theorem moved_hold (s : State) {p : Pins} (dead : (p.power && p.resetn) = false) (fresh : Bool) :
    s.Moved (State.hold { s with pins := p } fresh) :=
  .single (.reset s.fresh rfl ⟨rfl, rfl⟩ (fun i => congrArg DirEntry.isProtected (reset_protected i))
    (.inr ⟨dead, nofun⟩))

end Sys2Proof.Machine
end

section
/-! SUPPORT. Every command and every step as a run of moves of the part (`exec_moved`, `step_moved`). -/

namespace Sys2Proof.Machine

/-! ## Requests -/

/-- A request that needs RUNNING, by what its owner does. -/
theorem moved_request {s : State} (live : s.live = true) {c : Byte} (hc : c ≠ 0x70#8 ∧ c ≠ 0x71#8) {own : State → State}
    (ho : ∀ u : State, u.live = true → u.suc.phase = .running → u.Moved (own u)) (h : ReqHead) (chk : Option Status) :
    s.Moved (s.request h c chk own) := by
  unfold State.request
  split_ifs
  · exact .refl
  · split
    · exact moved_of_vault rfl
    · rename_i passes
      have accepted : s.Moved (s.accepted h c) := moved_of_vault rfl
      refine accepted.trans (ho (s.accepted h c) live ?_)
      unfold State.refusal at passes
      split_ifs at passes with h1 h2 h3 h4 h5 h6
      · exact absurd (passes ▸ h5) (by simp)
      · cases hp : s.suc.phase with
        | running => exact hp
        | starting => exact absurd ⟨hp, hc⟩ h6

/-- A request whose owner leaves the store alone. -/
theorem moved_requestBeside {s : State} {own : State → State} (ho : ∀ u : State, (own u).outside = u.outside)
    (h : ReqHead) (c : Byte) (chk : Option Status) : s.Moved (s.request h c chk own) :=
  moved_of_outside (outside_request ho h c chk)

section
variable {s : State} (live : s.live = true) (running : s.suc.phase = .running)
include live running

theorem moved_store {t : State} (h : s.Stored t) : s.Moved t := .single (.store live (.inl running) h)

theorem moved_answered {t : State} (h : s.Stored t) (tag : Byte) (st : Status) (r : List Byte) :
    s.Moved (t.answer tag st r) := moved_store live running (h.trans (stored_of_outside (outside_answer t tag st r)))

/-- An operation that joins the queue, from a state that differs in its group only. -/
theorem moved_accept {t : State} (h : t.outside = s.outside) (k : StoreKind) (o : Option Byte) : s.Moved (t.accept k o) :=
  moved_store live running ((stored_of_outside h).trans (stored_accept t k o))

theorem moved_ownSlotSave (tag g x : Byte) (l : Label) : s.Moved (ownSlotSave tag g x l s) := by
  unfold ownSlotSave
  split
  · split
    · exact moved_of_vault rfl
    · simp only
      split_ifs
      · exact moved_of_vault rfl
      · exact moved_of_vault rfl
      · exact moved_accept (t := s.setGroup _ _) live running rfl _ _
  all_goals exact moved_of_vault rfl

theorem moved_ownSlotLoad (tag x g : Byte) : s.Moved (ownSlotLoad tag x g s) := by
  unfold ownSlotLoad
  split
  · split_ifs
    · exact moved_of_vault rfl
    · exact moved_accept live running (outside_reserve s _) _ _
  all_goals exact moved_of_vault rfl

theorem moved_ownSlotErase (tag x : Byte) : s.Moved (ownSlotErase tag x s) := by
  unfold ownSlotErase
  split
  · exact moved_of_vault rfl
  · split
    · exact moved_of_vault rfl
    · exact moved_accept live running rfl _ _

theorem moved_ownSlotLock (tag x : Byte) : s.Moved (ownSlotLock tag x s) := by
  unfold ownSlotLock
  split
  · exact moved_of_vault rfl
  · split_ifs
    · exact moved_of_vault rfl
    · exact moved_accept live running rfl _ _

omit live running in
/-- A slot's protection changes; a locked slot's only to PROTECTED (R140, R141). -/
theorem stored_setProtected (i : Fin 32) (b : Bool) (h : b = true ∨ (s.slot i).isLocked = false) :
    s.Stored (s.setSlot i { s.slot i with isProtected := b }) := by
  refine stored_of_serves rfl rfl ⟨fun j => ?_, fun j hl hp => ?_⟩ rfl
  · rw [State.slot_setSlot]
    split_ifs with hj
    · rw [← hj]
    · rfl
  · rw [State.slot_setSlot]
    split_ifs with hj
    · subst hj
      exact h.resolve_right (by simp [hl])
    · exact hp

theorem moved_ownSlotProtect (tag x : Byte) : s.Moved (ownSlotProtect tag x s) := by
  unfold ownSlotProtect
  split
  · exact moved_of_vault rfl
  · exact moved_answered live running (stored_setProtected _ true (.inl rfl)) _ _ _

theorem moved_ownSlotUnprotect (tag x : Byte) : s.Moved (ownSlotUnprotect tag x s) := by
  unfold ownSlotUnprotect
  split
  · exact moved_of_vault rfl
  · split_ifs with hl
    · exact moved_of_vault rfl
    · exact moved_answered live running (stored_setProtected _ false (.inr (Bool.eq_false_iff.2 hl))) _ _ _

theorem moved_ownPartResetSequencer (tag : Byte) : s.Moved (ownPartResetSequencer tag s) := by
  have cancelled := (stored_of_outside (cutLanes_outside s)).trans (stored_cancelStore _)
  unfold ownPartResetSequencer
  generalize s.cutLanes.cancelStore = t at cancelled ⊢
  have cleared : t.Stored t.resetGroups := stored_of_outside rfl
  exact moved_answered live running (cancelled.trans cleared) tag .ok []

end

theorem moved_ownPartResetFull (s : State) (tag : Byte) : s.Moved (ownPartResetFull tag s) :=
  .single (.start rfl rfl rfl (.inr ⟨rfl, rfl⟩))

theorem moved_ownSlotFreeze (s : State) (tag : Byte) : s.Moved (ownSlotFreeze tag s) := moved_of_vault rfl

theorem moved_ownSetupStart (s : State) (tag : Byte) (d : RawDesignation) : s.Moved (ownSetupStart tag d s) := by
  unfold ownSetupStart
  split <;> exact moved_of_vault rfl

/-- A code of 10.3.1 other than those of PART.IDENT and PART.STATUS. -/
theorem moved_reqPartReset {s : State} (live : s.live = true) (h : ReqHead) (c : Byte) : s.Moved (reqPartReset h c s) := by
  unfold reqPartReset
  split_ifs
  · exact moved_request live (by decide) (fun u _ _ => moved_ownPartResetFull u h.tag) h none
  · exact moved_request live (by decide) (fun u hl hr => moved_ownPartResetSequencer hl hr h.tag) h none
  · exact moved_requestBeside (outside_ownPartResetLanes h.tag) h _ none
  · exact moved_requestBeside (outside_ownPartResetLoops h.tag) h _ none
  · exact moved_requestBeside (fun u => outside_answer u _ _ _) h _ none

theorem moved_storeRequest {s : State} (live : s.live = true) (h : ReqHead) (c : Byte) (b : List Byte) :
    s.Moved (storeRequest h c b s) := by
  unfold storeRequest
  split
  · exact moved_request live (by decide) (fun u hl hr => moved_ownSlotSave hl hr _ _ _ _) h none
  · exact moved_request live (by decide) (fun u hl hr => moved_ownSlotLoad hl hr _ _ _) h none
  · exact moved_request live (by decide) (fun u hl hr => moved_ownSlotErase hl hr _ _) h none
  · exact moved_request live (by decide) (fun u hl hr => moved_ownSlotProtect hl hr _ _) h none
  · exact moved_request live (by decide) (fun u hl hr => moved_ownSlotUnprotect hl hr _ _) h none
  · exact moved_request live (by decide) (fun u hl hr => moved_ownSlotLock hl hr _ _) h none
  · exact moved_request live (by decide) (fun u _ _ => moved_ownSlotFreeze u _) h none
  · exact moved_requestBeside (fun u => outside_answer u _ _ _) h _ none
  · exact moved_request live (by decide) (fun u hl hr => moved_accept hl hr rfl _ _) h none
  · exact moved_request live (by decide) (fun u _ _ => moved_ownSetupStart u _ _) h none
  · exact moved_requestBeside (fun u => outside_answer u _ _ _) h _ none
  · exact moved_requestBeside (fun u => outside_answer u _ _ _) h _ none
  · exact moved_requestBeside (fun u => outside_answer u _ _ _) h _ none
  · exact moved_reqPartReset live h _
  · exact .refl

/-! ## Frames -/

theorem moved_frameTaken {s : State} (live : s.live = true) (h : ReqHead) (c : Byte) (b : List Byte) :
    s.Moved (frameTaken h c b s) := by
  unfold frameTaken
  split
  · exact moved_requestBeside (own := id) (fun _ => rfl) h c _
  · split_ifs
    · exact moved_of_outside (outside_groupRequest s h c b)
    · exact moved_of_outside (outside_laneRequest s h c b)
    · exact moved_of_outside (outside_loopRequest s h c b)
    · exact moved_storeRequest live h c b

theorem moved_characterArrival {s : State} (live : s.live = true) (c : Byte) : s.Moved (characterArrival c s) := by
  have heard : s.Moved { s with hpt := { s.hpt with gapTimer := true } } := moved_of_vault rfl
  have rx (t : State) (x : Rx) : t.Moved (t.setRx x) := moved_of_vault rfl
  unfold characterArrival assemble
  extract_lets _ t
  refine heard.trans ?_
  change t.Moved _
  have ht : t.live = true := live
  clear_value t
  split
  · exact .refl
  · split_ifs
    · exact rx ..
    · exact .refl
  · split_ifs
    · exact rx ..
    · exact rx ..
    · exact rx ..
    · exact (rx t .hunting).trans (moved_frameTaken (s := t.setRx .hunting) ht _ _ _)
  · exact .refl

/-! ## Events -/

/-- Array work, fusing and suspensions act only on an engine that is not IDLE. -/
theorem moved_engine {s t : State} (live : s.live = true) (h : s.Stored t) (rest : s.psc.engine = .idle → t = s) :
    s.Moved t := by
  by_cases idle : s.psc.engine = .idle
  · rw [rest idle]
  · exact .single (.store live (.inr (.inr idle)) h)

theorem moved_resumeGuardExpiry {s : State} (live : s.live = true) : s.Moved (resumeGuardExpiry s) := by
  by_cases idle : s.psc.engine = .idle
  · unfold resumeGuardExpiry State.judge
    simp only [idle]
    split_ifs
    · exact moved_of_vault (by simp only [State.vault, State.standing, State.live, idle])
    · exact .refl
  · exact .single (.store live (.inr (.inr idle)) (stored_resumeGuardExpiry s))

theorem moved_transmitEnd (s : State) (x : Straps) : s.Moved (transmitEnd x s) := by
  unfold transmitEnd
  split
  · exact .refl
  · split_ifs
    · exact moved_beginStart s s.pins _ _
    · have freed := outside_freed s
      simp only [State.outside, Prod.mk.injEq] at freed
      obtain ⟨-, psc, suc, nv, -⟩ := freed
      exact moved_of_vault (by simp only [State.vault, State.standing, State.live, psc, suc, nv])

theorem moved_directoryRebuild (s : State) : s.Moved (directoryRebuild s) := by
  unfold directoryRebuild
  split_ifs with hst
  · exact .single (.rebuilt (by simp only [State.live]) ⟨hst, nofun⟩ rfl rfl rfl fun i => by simp [State.slot])
  · exact .refl

theorem moved_powerOn (s : State) (x : Straps) : s.Moved (powerOn x s) := by
  unfold powerOn
  split
  · exact moved_beginStart s _ _ x
  · rename_i h
    exact moved_hold s (by simpa using h) true

theorem moved_powerFail (s : State) : s.Moved (powerFail s) := moved_hold s (Bool.false_and _) true

theorem moved_resetnAssert (s : State) : s.Moved (resetnAssert s) := moved_hold s (Bool.and_false _) s.suc.fresh

theorem moved_resetnRelease (s : State) (x : Straps) : s.Moved (resetnRelease x s) := by
  unfold resetnRelease
  split
  · exact .refl
  · rename_i low
    split
    · exact moved_beginStart s _ _ x
    · rename_i down
      exact moved_of_vault (by simp [State.vault, State.standing, State.live, low, down])

/-! ## Every command -/

theorem moved_arbitrated (s : State) : s.Moved s.arbitrated := moved_of_vault rfl

theorem moved_taking {s t : State} {f : State → State} (hf : s.live = true → s.Moved (f s))
    (ht : s.taking f = .next t) : s.Moved t := by
  unfold State.taking at ht
  split_ifs at ht with live
  · cases ht
    exact (hf live).trans (moved_arbitrated _)
  · cases ht
    exact .refl

/-- A command whose work leaves the store alone. -/
theorem moved_beside {s t : State} {f : State → State} (hf : (f s).outside = s.outside) (ht : s.taking f = .next t) :
    s.Moved t := moved_taking (fun _ => moved_of_outside hf) ht

/-- A request row whose owner leaves the store alone. -/
theorem moved_rowBeside {s t : State} {own : State → State} (ho : ∀ u : State, (own u).outside = u.outside) {h c chk}
    (ht : s.taking (fun s => s.request h c chk own) = .next t) : s.Moved t := moved_beside (outside_request ho h c chk) ht

/-- A request row of the store. -/
theorem moved_row {s t : State} {own : State → State} {c : Byte} (hc : c ≠ 0x70#8 ∧ c ≠ 0x71#8)
    (ho : ∀ u : State, u.live = true → u.suc.phase = .running → u.Moved (own u)) {h chk}
    (ht : s.taking (fun s => s.request h c chk own) = .next t) : s.Moved t :=
  moved_taking (fun live => moved_request live hc ho h chk) ht

/-- Every command is a run of moves. -/
theorem exec_moved {s t : State} {i : Instr} (ht : exec i s = .next t) : s.Moved t := by
  cases i with
  | groupOpen h g => exact moved_rowBeside (fun u => outside_ownGroupOpen _ u _) ht
  | groupAdd h g r => exact moved_rowBeside (fun u => outside_ownGroupAdd _ u _ _) ht
  | groupClose h g => exact moved_rowBeside (fun u => outside_ownGroupClose _ u _) ht
  | groupDrop h g => exact moved_rowBeside (fun u => outside_ownGroupDrop _ u _) ht
  | groupEdit h g i v => exact moved_rowBeside (fun u => outside_ownGroupEdit _ u _ _ _) ht
  | groupQuery h g => exact moved_rowBeside (fun u => outside_ownGroupQuery _ u _) ht
  | groupRead h g f => exact moved_rowBeside (fun u => outside_ownGroupRead _ u _ _) ht
  | groupArm h g l x m => exact moved_rowBeside (fun u => outside_ownGroupArm _ u _ _ _ _) ht
  | groupDisarm h g => exact moved_rowBeside (fun u => outside_ownGroupDisarm _ u _) ht
  | groupApply h g => exact moved_rowBeside (fun u => outside_ownGroupApply _ u _) ht
  | groupAbort h g => exact moved_rowBeside (fun u => outside_ownGroupAbort _ u _) ht
  | targetSet h x r => exact moved_rowBeside (fun u => outside_ownTargetSet _ u _ _) ht
  | targetQuery h x => exact moved_rowBeside (fun u => outside_ownTargetQuery _ u _) ht
  | targetClear h x => exact moved_rowBeside (fun u => outside_ownTargetClear _ u _) ht
  | targetRead h x r => exact moved_rowBeside (fun u => outside_ownTargetRead _ u _ _) ht
  | laneSet h n r => exact moved_rowBeside (fun u => outside_ownLaneSet _ u _ _) ht
  | laneQuery h n => exact moved_rowBeside (fun u => outside_ownLaneQuery _ u _) ht
  | syncSet h l e w => exact moved_rowBeside (fun u => outside_ownSyncSet _ u _ _ _) ht
  | syncPulse h l => exact moved_rowBeside (fun u => outside_ownSyncPulse _ u _) ht
  | syncQuery h l => exact moved_rowBeside (fun u => outside_ownSyncQuery _ u _) ht
  | loopSet h n r => exact moved_rowBeside (fun u => outside_ownLoopSet _ u _ _) ht
  | loopStart h n => exact moved_rowBeside (fun u => outside_ownLoopStart _ u _) ht
  | loopStop h n => exact moved_rowBeside (fun u => outside_ownLoopStop _ u _) ht
  | loopQuery h n => exact moved_rowBeside (fun u => outside_ownLoopQuery _ u _) ht
  | slotSave h g x l => exact moved_row (by decide) (fun _ hl hr => moved_ownSlotSave hl hr _ _ _ _) ht
  | slotLoad h x g => exact moved_row (by decide) (fun _ hl hr => moved_ownSlotLoad hl hr _ _ _) ht
  | slotErase h x => exact moved_row (by decide) (fun _ hl hr => moved_ownSlotErase hl hr _ _) ht
  | slotProtect h x => exact moved_row (by decide) (fun _ hl hr => moved_ownSlotProtect hl hr _ _) ht
  | slotUnprotect h x => exact moved_row (by decide) (fun _ hl hr => moved_ownSlotUnprotect hl hr _ _) ht
  | slotLock h x => exact moved_row (by decide) (fun _ hl hr => moved_ownSlotLock hl hr _ _) ht
  | slotFreeze h => exact moved_row (by decide) (fun u _ _ => moved_ownSlotFreeze u _) ht
  | slotList h => exact moved_rowBeside (fun u => outside_answer u _ _ _) ht
  | setupSave h => exact moved_row (by decide) (fun _ hl hr => moved_accept hl hr rfl _ _) ht
  | setupStart h d => exact moved_row (by decide) (fun u _ _ => moved_ownSetupStart u _ _) ht
  | setupQuery h => exact moved_rowBeside (fun u => outside_answer u _ _ _) ht
  | partIdent h => exact moved_rowBeside (fun u => outside_answer u _ _ _) ht
  | partStatus h => exact moved_rowBeside (fun u => outside_answer u _ _ _) ht
  | partResetFull h => exact moved_row (by decide) (fun u _ _ => moved_ownPartResetFull u _) ht
  | partResetSequencer h => exact moved_row (by decide) (fun _ hl hr => moved_ownPartResetSequencer hl hr _) ht
  | partResetLanes h => exact moved_rowBeside (outside_ownPartResetLanes _) ht
  | partResetLoops h => exact moved_rowBeside (outside_ownPartResetLoops _) ht
  | uartFramingError => exact moved_beside (f := framingError) rfl ht
  | gapTimerExpiry => exact moved_beside (outside_gapExpired s) ht
  | transmitEnd x => exact moved_taking (fun _ => moved_transmitEnd s x) ht
  | powerOn x => cases ht; exact moved_powerOn s x
  | powerFail => cases ht; exact moved_powerFail s
  | resetnAssert => cases ht; exact moved_resetnAssert s
  | resetnRelease x => cases ht; exact moved_resetnRelease s x
  | directoryRebuild => exact moved_taking (fun _ => moved_directoryRebuild s) ht
  | setupAreaRead => exact moved_taking moved_setupAreaRead ht
  | syncLevelChange l x =>
    have level : s.Moved (s.setPinLevel l x) := by cases l <;> exact moved_of_vault rfl
    exact level.trans (moved_beside (outside_setLine _ l _) ht)
  | syncFilterSettled l => exact moved_beside (outside_filterSettled s l) ht
  | windowExpiry l => exact moved_beside (f := fun s => s.closeWindow l) ((laneSide_outside s.outside).closeWindow rfl l) ht
  | transactionEnd l e => exact moved_beside ((laneSide_outside s.outside).transactionEnd rfl l e) ht
  | clockHoldTimeout l => exact moved_beside ((laneSide_outside s.outside).clockHoldTimeout rfl l) ht
  | pollGapExpiry l => exact moved_beside ((laneSide_outside s.outside).pollGapExpiry rfl l) ht
  | waitExpiry l => exact moved_beside ((laneSide_outside s.outside).waitExpiry rfl l) ht
  | eraseComplete left =>
    exact moved_taking
      (fun live => moved_engine live (stored_eraseComplete s left) fun idle => by rw [eraseComplete, idle]) ht
  | pageProgramComplete left =>
    exact moved_taking
      (fun live => moved_engine live (stored_pageProgramComplete s left) fun idle => by rw [pageProgramComplete, idle]) ht
  | imageReadComplete => exact moved_taking moved_imageReadComplete ht
  | fuseProgramComplete blown =>
    exact moved_taking
      (fun live => moved_engine live (stored_fuseProgramComplete s blown) fun idle => by rw [fuseProgramComplete, idle]) ht
  | suspendEffect =>
    exact moved_taking
      (fun live => moved_engine live (stored_suspendEffect s) fun idle => by rw [suspendEffect, idle]) ht
  | resumeGuardExpiry => exact moved_taking moved_resumeGuardExpiry ht
  | characterArrival c => exact moved_taking (fun live => moved_characterArrival live c) ht

/-- A step on an empty queue: the last step of a start, where it is due. -/
theorem moved_idled (s : State) : s.Moved s.idled := by
  unfold State.idled
  split
  case h_1 r hr =>
    split_ifs with live
    · exact (moved_finishStart ⟨live, by rw [hr]; nofun⟩ r).trans (moved_arbitrated _)
    · exact .refl
  all_goals exact .refl

/-- Every step is a run of moves. -/
theorem step_moved {s t : State} (ht : step s = .next t) : s.Moved t := by
  unfold step at ht
  split at ht
  · cases ht
    exact moved_idled s
  · rename_i c q _
    have taken : s.Moved (s.withPending q) := moved_of_vault rfl
    exact taken.trans (exec_moved ht)

end Sys2Proof.Machine
end

section
/-! SUPPORT. The laws of the store through every move: the guards of a locked slot (R139), what the array holds during array
work (R130, R154), and the content of a locked slot (R131, R143). -/

namespace Sys2Proof.Machine

/-! ## The guards (R139) -/

theorem StoreMove.guardLaw {s t : State} (h : StoreMove s t) (law : s.guardLaw) : t.guardLaw := by
  have kept (k : s.GuardsKept t) : t.guardLaw := fun i hl =>
    have hl' := (k.locked i).symm.trans hl
    k.guarded i hl' (law i hl')
  intro i hl
  cases h.change with
  | serves _ guards _ => exact kept guards i hl
  | begins _ _ guards _ _ _ => exact kept guards i hl
  | writes _ _ _ _ _ _ guards _ => exact kept guards i hl
  | fuses j _ guard others _ =>
    by_cases hj : i = j
    · rw [hj]; exact guard.2
    · rw [others i hj] at hl ⊢
      exact law i hl

theorem Move.guardLaw {s t : State} (h : Move s t) (law : s.guardLaw) : t.guardLaw := by
  have same (dir : t.psc.dir = s.psc.dir) : t.guardLaw := fun i => by
    simp only [State.slot, dir]
    exact law i
  cases h with
  | beside vault => exact same (congrArg (·.2.1) vault)
  | store _ _ moves =>
    clear same
    induction moves with
    | refl => exact law
    | tail _ h ih => exact h.guardLaw ih
  | start _ psc _ _ => exact same (congrArg Psc.dir psc)
  | rebuilt _ _ _ _ _ guards => exact fun i _ => (guards i).1
  | reset _ _ _ guards _ => exact fun i _ => guards i

/-! ## The array (R129, R130, R154) -/

theorem readAll_clearMarker {m : List Host.Cell} (hm : Memory.wf m) (u : Nat) :
    Memory.readAll (Memory.clearMarker m u) (unitBase u) 4 = [0#8, 0#8, 0#8, 0#8] := by
  refine (readAll_eq_replicate fun k hk => ?_).trans rfl
  have := Memory.read_programAll m hm (unitBase u) [0#8, 0#8, 0#8, 0#8] k hk
  have zeros : ∀ k (h : k < [0#8, 0#8, 0#8, 0#8].length), [0#8, 0#8, 0#8, 0#8][k] = 0#8 := by decide
  rw [Memory.clearMarker, this, zeros k hk, BitVec.and_zero]

theorem StoreMove.workLaw {s t : State} (h : StoreMove s t) (wf : Memory.wf s.nv.mem) :
    Memory.wf t.nv.mem ∧ (s.workLaw → t.workLaw) := by
  simp only [workLaw_iff]
  have same (mem : t.nv.mem = s.nv.mem) (work : t.psc.engine.arrayWork = s.psc.engine.arrayWork) :
      Memory.wf t.nv.mem ∧ ((∀ x, s.psc.engine.arrayWork = some x → x.ready s.nv.mem) →
        ∀ x, t.psc.engine.arrayWork = some x → x.ready t.nv.mem) := by
    rw [mem, work]
    exact ⟨wf, id⟩
  cases h.change with
  | serves nv _ work => exact same (congrArg Nv.mem nv) work
  | begins w nv _ engine _ image =>
    rw [nv, engine]
    refine ⟨Memory.wf_clearMarker wf _, fun _ x hx => ?_⟩
    cases hx
    exact ⟨readAll_clearMarker wf _, image⟩
  | writes y m working nv wf' _ _ after =>
    rw [nv]
    refine ⟨wf' wf, fun law x hx => ?_⟩
    rcases after with none | ⟨pages, work, ready⟩
    · rw [none] at hx; cases hx
    · rw [work] at hx
      cases hx
      exact ready wf (law y working)
  | fuses i nv _ _ work => exact same ((congrArg Nv.mem nv).trans rfl) (work.2.trans work.1.symm)

theorem Move.workLaw {s t : State} (h : Move s t) (wf : Memory.wf s.nv.mem) :
    Memory.wf t.nv.mem ∧ (s.workLaw → t.workLaw) := by
  have same (nv : t.nv = s.nv) (engine : t.psc.engine = s.psc.engine) :
      Memory.wf t.nv.mem ∧ (s.workLaw → t.workLaw) := by
    simp only [State.workLaw, nv, engine]
    exact ⟨wf, id⟩
  cases h with
  | beside vault => exact same (congrArg (·.2.2.2.2) vault) (congrArg (·.2.2.1) vault)
  | store _ _ moves =>
    clear same
    induction moves with
    | refl => exact ⟨wf, id⟩
    | tail _ h ih =>
      obtain ⟨wf', law⟩ := h.workLaw ih.1
      exact ⟨wf', law ∘ ih.2⟩
  | start _ psc nv _ => exact same nv (congrArg Psc.engine psc)
  | rebuilt _ _ nv engine _ _ => exact same nv engine
  | reset k nv store _ _ =>
    rw [nv]
    refine ⟨wf_abandoned wf _ _, fun _ => (workLaw_iff t).2 fun x hx => ?_⟩
    rw [store.1] at hx
    cases hx

/-- Settles O53: each law through the moves of a step. -/
theorem arrayFormAndGuardsKept : Obligations.ArrayFormAndGuardsKept := by
  intro s t ht
  have moved := step_moved ht
  refine ⟨fun wf => ?_, fun law => ?_⟩
  · clear ht
    induction moved with
    | refl => exact ⟨wf, id⟩
    | tail _ h ih =>
      obtain ⟨wf', law⟩ := h.workLaw ih.1
      exact ⟨wf', law ∘ ih.2⟩
  · clear ht
    induction moved with
    | refl => exact law
    | tail _ h ih => exact h.guardLaw ih

/-! ## The content of a locked slot (R131, R143) -/

/-- The work is for the setup area, or for a slot whose lock bit is clear. -/
def StoreOp.free (op : StoreOp) (locks : Table Bool 32) : Prop :=
  op.kind = .setupSave ∨ ∃ i, op.slotWorked = some i ∧ locks[i] = false

/-- The array work under way is for no slot whose lock bit is set. -/
def State.worksFree (s : State) : Prop := ∀ x, s.psc.engine.arrayWork = some x → x.work.op.free s.nv.locks

/-- `locked` mirrors the lock bits. -/
def State.mirrors (s : State) : Prop := ∀ i : Fin 32, (s.slot i).isLocked = s.nv.locks[i]

/-- Every slot whose lock bit is set keeps it, and its content (R131). -/
def Nv.lockedKept (n n' : Nv) : Prop := ∀ i : Fin 32, n.locks[i] = true → n'.locks[i] = true ∧ sameUnit n.mem n'.mem i.val

theorem Nv.lockedKept_refl (n : Nv) : n.lockedKept n := fun _ h => ⟨h, fun _ _ => rfl⟩

theorem Nv.lockedKept.trans {a b c : Nv} (h : a.lockedKept b) (h' : b.lockedKept c) : a.lockedKept c := fun i hi =>
  ⟨(h' i (h i hi).1).1, fun o ho => ((h' i (h i hi).1).2 o ho).trans ((h i hi).2 o ho)⟩

/-- Work that is free is for another unit than that of a locked slot. -/
theorem StoreOp.unit_ne {op : StoreOp} {locks : Table Bool 32} (free : op.free locks) {i : Fin 32}
    (hi : locks[i] = true) : i.val ≠ op.unit := by
  have := i.isLt
  rcases free with hk | ⟨j, hj, hf⟩
  · simp only [StoreOp.unit, hk, Config.setupUnit]
    omega
  · have hu : op.unit = j.val := by
      unfold StoreOp.slotWorked at hj
      unfold StoreOp.unit
      split at hj <;> simp_all
    rw [hu]
    intro e
    rw [Fin.ext e, hf] at hi
    cases hi

/-- A write to the unit of work that is free leaves every locked slot as it is. -/
theorem lockedKept_of_outside {n n' : Nv} {op : StoreOp} (free : op.free n.locks) (locks : n'.locks = n.locks)
    (outside : ∀ a, a / Config.unitBytes ≠ op.unit → Memory.read n'.mem a = Memory.read n.mem a) : n.lockedKept n' := by
  intro i hi
  refine ⟨locks ▸ hi, fun o ho => outside _ ?_⟩
  have := StoreOp.unit_ne free hi
  simp only [unitBase, Config.unitBytes] at ho ⊢
  omega

/-- A lock bit set leaves every content and every bit set before. -/
theorem lockedKept_setLock (n : Nv) (i : Fin 32) (b : Bool) (h : n.locks[i] = true → b = true) :
    n.lockedKept { n with locks := n.locks.set i b } := by
  intro j hj
  refine ⟨?_, fun _ _ => rfl⟩
  simp only [Fin.getElem_fin, Vector.getElem_set]
  split_ifs with e
  · exact h (by simpa only [Fin.getElem_fin, ← e] using hj)
  · exact hj

theorem StoreMove.locks {s t : State} (h : StoreMove s t) (mirrors : s.mirrors) (free : s.worksFree) :
    t.mirrors ∧ t.worksFree ∧ s.nv.lockedKept t.nv := by
  have same (locks : t.nv.locks = s.nv.locks) (guards : s.GuardsKept t) : t.mirrors := fun i =>
    (guards.locked i).trans ((mirrors i).trans (by rw [locks]))
  cases h.change with
  | serves nv guards work =>
    refine ⟨same ((congrArg Nv.locks nv).trans rfl) guards, fun x hx => ?_, nv ▸ Nv.lockedKept_refl _⟩
    rw [nv]
    exact free x (work ▸ hx)
  | begins w nv guards engine hfree _ =>
    have hw : w.op.free s.nv.locks := hfree.imp_right fun ⟨i, hi, hl⟩ => ⟨i, hi, (mirrors i).symm.trans hl⟩
    refine ⟨same ((congrArg Nv.locks nv).trans rfl) guards, fun x hx => ?_, ?_⟩
    · rw [engine] at hx
      cases hx
      rw [nv]
      exact hw
    · rw [nv]
      exact lockedKept_of_outside hw rfl fun a ha => Memory.read_clearMarker_other _ ha
  | writes y m working nv _ outside guards after =>
    refine ⟨same ((congrArg Nv.locks nv).trans rfl) guards, fun x hx => ?_, ?_⟩
    · rcases after with none | ⟨pages, work, -⟩
      · rw [none] at hx; cases hx
      · rw [work] at hx
        cases hx
        rw [nv]
        exact free y working
    · rw [nv]
      exact lockedKept_of_outside (free y working) rfl outside
  | fuses i nv guard others work =>
    refine ⟨fun j => ?_, fun x hx => ?_, ?_⟩
    · rw [nv]
      simp only [Fin.getElem_fin, Vector.getElem_set]
      split_ifs with e
      · rw [← Fin.ext e]
        exact guard.1
      · rw [others j fun h => e (by rw [h])]
        exact mirrors j
    · rw [work.2] at hx
      cases hx
    · rw [nv]
      exact lockedKept_setLock _ _ _ fun _ => rfl

theorem Stored.locks {s t : State} (h : s.Stored t) (mirrors : s.mirrors) (free : s.worksFree) :
    t.mirrors ∧ t.worksFree ∧ s.nv.lockedKept t.nv := by
  induction h with
  | refl => exact ⟨mirrors, free, Nv.lockedKept_refl _⟩
  | tail _ h ih =>
    obtain ⟨m, f, kept⟩ := ih
    obtain ⟨m', f', kept'⟩ := h.locks m f
    exact ⟨m', f', kept.trans kept'⟩

/-! ## Abandoned work (R131, R147) -/

/-- A change of cells that keeps their addresses, and keeps those at an address, leaves its byte as it was. -/
theorem read_filterMap_other (m : List Host.Cell) {f : Host.Cell → Option Host.Cell} {x : Nat}
    (h : ∀ c, (c.1 = x → f c = some c) ∧ ∀ d, f c = some d → d.1 = c.1) :
    Memory.read (m.filterMap f) x = Memory.read m x := by
  induction m with
  | nil => rfl
  | cons c m ih =>
    obtain ⟨keeps, address⟩ := h c
    by_cases hc : c.1 = x
    · rw [List.filterMap_cons_some (keeps hc), Memory.read, Memory.read, if_pos hc, if_pos hc]
    · rw [Memory.read, if_neg hc, ← ih]
      cases hf : f c with
      | none => rw [List.filterMap_cons_none hf]
      | some d => rw [List.filterMap_cons_some hf, Memory.read, if_neg (address d hf ▸ hc)]

theorem read_abandonErase_other (m : List Host.Cell) {u x : Nat} (k : Nat) (hx : x / Config.unitBytes ≠ u) :
    Memory.read (abandonErase m u k) x = Memory.read m x := by
  refine read_filterMap_other m fun c => ⟨fun hc => ?_, fun d hd => ?_⟩
  · subst hc
    exact if_pos hx
  · simp only at hd
    split_ifs at hd <;> cases hd <;> rfl

@[simp] theorem length_imagePage (image : List Byte) (p : Nat) : (imagePage image p).length = Config.pageBytes := by
  simp only [imagePage, List.length_append, List.length_replicate, List.length_take]
  omega

/-- What an abandoned program of a page leaves in the array: the bytes it may have reached. -/
theorem read_abandonPage_other (m : List Host.Cell) (w : Work) (p : Fin 16) (k : Nat) {x : Nat}
    (hx : x / Config.pageBytes ≠ w.op.unit * 16 + p.val) :
    Memory.read (abandonPage m w p k) x = Memory.read m x := by
  refine Memory.read_programPage_other m ?_ hx
  split_ifs <;> simp [markerShort, partialPage]

/-- Abandoned work leaves every locked slot as it is. -/
theorem lockedKept_abandoned {n : Nv} {e : Engine} (free : ∀ x, e.arrayWork = some x → x.work.op.free n.locks) (k : Nat) :
    n.lockedKept (n.abandoned e k) := by
  have erase (w : Work) (he : e.arrayWork = some (.erase w)) :
      n.lockedKept { n with mem := abandonErase n.mem w.op.unit k } :=
    lockedKept_of_outside (free _ he) rfl fun a ha => read_abandonErase_other n.mem k ha
  unfold Nv.abandoned
  split
  case h_1 w => exact erase w rfl
  case h_2 w => exact erase w rfl
  case h_3 op w => exact erase w rfl
  case h_4 w p pages =>
    split_ifs
    · refine lockedKept_of_outside (free _ rfl) rfl fun a ha => read_abandonPage_other n.mem w p k ?_
      have := p.isLt
      simp only [Suspended.work, Config.unitBytes, Config.pageBytes] at ha ⊢
      omega
    · exact Nv.lockedKept_refl n
  case h_5 op i => exact lockedKept_setLock n i _ fun h => by rw [h, Bool.true_or]
  all_goals exact Nv.lockedKept_refl n

/-! ## The law of locked slots -/

theorem lockLaw_iff (s : State) : s.lockLaw ↔
    (s.live = false ∨ s.suc.stage = .rebuild → s.psc.engine = .idle ∧ s.psc.queue = []) ∧
    (s.suc.stage = .rebuild → s.suc.phase = .starting) ∧
    (s.live = true → s.suc.stage ≠ .rebuild → s.mirrors) ∧ s.worksFree := by
  have works : (∀ op, s.psc.engine.work = some op →
      (op.kind = .setupSave ∨ ∃ i, op.slotWorked = some i ∧ s.nv.locks[i] = false)) ↔ s.worksFree := by
    simp only [Engine.work_eq_some, State.worksFree, StoreOp.free]
    exact ⟨fun h x hx => h _ ⟨x, hx, rfl⟩, fun h _ ⟨x, hx, e⟩ => e ▸ h x hx⟩
  exact and_congr_right fun _ => and_congr_right fun _ => and_congr_right fun _ => works

/-- The law speaks of the vault alone. -/
theorem lockLaw_of_vault {s t : State} (h : t.vault = s.vault) (law : s.lockLaw) : t.lockLaw := by
  simp only [State.vault, State.standing, Prod.mk.injEq] at h
  obtain ⟨⟨live, phase, stage⟩, dir, engine, queue, nv⟩ := h
  simpa only [State.lockLaw, State.slot, live, phase, stage, dir, engine, queue, nv] using law

theorem Move.lockLaw {s t : State} (h : Move s t) (law : s.lockLaw) : t.lockLaw ∧ s.nv.lockedKept t.nv := by
  obtain ⟨resting, starting, mirrors, free⟩ := (lockLaw_iff s).1 law
  have freeKept (nv : t.nv = s.nv) (engine : t.psc.engine = s.psc.engine) : t.worksFree := fun x hx => by
    rw [nv]
    exact free x (engine ▸ hx)
  cases h with
  | beside vault =>
    have nv : t.nv = s.nv := congrArg (·.2.2.2.2) vault
    exact ⟨lockLaw_of_vault vault law, nv ▸ Nv.lockedKept_refl _⟩
  | store live awake moves =>
    have past : s.suc.stage ≠ .rebuild := by
      intro hst
      rcases awake with running | stage | busy
      · rw [starting hst] at running; cases running
      · exact stage hst
      · exact busy (resting (.inr hst)).1
    obtain ⟨m, f, kept⟩ := Stored.locks moves (mirrors live past) free
    obtain ⟨live', past'⟩ := pastRebuild_of_standing (Stored.standing moves) ⟨live, past⟩
    refine ⟨(lockLaw_iff t).2 ⟨?_, fun h => absurd h past', fun _ _ => m, f⟩, kept⟩
    rintro (dead | h)
    · rw [live'] at dead; cases dead
    · exact absurd h past'
  | start live psc nv stage =>
    have mirrored (h : s.mirrors) : t.mirrors := fun i => by
      simpa only [State.slot, psc, nv] using h i
    have works := freeKept nv (congrArg Psc.engine psc)
    refine ⟨(lockLaw_iff t).2 ?_, nv ▸ Nv.lockedKept_refl _⟩
    rw [live, psc]
    rcases stage with ⟨hlive, past, past'⟩ | ⟨same, phase⟩
    · refine ⟨?_, fun h => absurd h past', fun _ _ => mirrored (mirrors hlive past), works⟩
      rintro (dead | h)
      · rw [hlive] at dead; cases dead
      · exact absurd h past'
    · rw [same]
      exact ⟨resting, fun _ => phase, fun hl hst => mirrored (mirrors hl hst), works⟩
  | rebuilt live stage nv engine queue guards =>
    refine ⟨(lockLaw_iff t).2 ⟨?_, fun h => absurd h stage.2, fun _ _ i => ?_, freeKept nv engine⟩,
      nv ▸ Nv.lockedKept_refl _⟩
    · rw [engine, queue]
      exact fun _ => resting (.inr stage.1)
    · rw [nv]
      exact (guards i).2
  | reset k nv store _ stage =>
    refine ⟨(lockLaw_iff t).2 ⟨fun _ => store, ?_, ?_, fun x hx => ?_⟩, nv ▸ lockedKept_abandoned free k⟩
    · intro h
      exact (stage.resolve_right fun h' => h'.2 h).2
    · intro live h
      rcases stage with ⟨h', -⟩ | ⟨dead, -⟩
      · exact absurd h' h
      · rw [live] at dead; cases dead
    · rw [store.1] at hx
      cases hx

/-- Settles O54: the law and the content of every locked slot, through the moves of a step. -/
theorem lockedSlotContentFixed : Obligations.LockedSlotContentFixed := by
  intro s t law ht
  have moved := step_moved ht
  suffices t.lockLaw ∧ s.nv.lockedKept t.nv from this
  clear ht
  induction moved with
  | refl => exact ⟨law, Nv.lockedKept_refl _⟩
  | tail _ h ih =>
    obtain ⟨law', kept⟩ := ih
    obtain ⟨law'', kept'⟩ := h.lockLaw law'
    exact ⟨law'', kept.trans kept'⟩

end Sys2Proof.Machine
end

section
/-! SUPPORT. The guard requests (R140 to R145), the end of the rebuild (R134, R136), the end of a lock programming and the
suspensions (R131, R165 to R169), and the payload of a slot image (R132, R133, R158). -/

namespace Sys2Proof.Machine

/-! ## SLOT.PROTECT, SLOT.UNPROTECT, SLOT.FREEZE, SLOT.LIST (R140, R141, R144, R145) -/

/-- Settles O46: the check of the slot, then the flag. -/
theorem slotProtectSetsFlag : Obligations.SlotProtectSetsFlag := by
  intro s h ha
  constructor
  · intro b hb
    exact taking_badArg ha fun t => by rw [ownSlotProtect, inRange_none hb]
  · intro i
    refine request_replied ha 0x53#8 (fun t => t.setSlot i { t.slot i with isProtected := true }) .ok _ ?_ rfl rfl
    simp only [ownSlotProtect, inRange_natByte_32]
    rfl

/-- An entry of SLOT.LIST, by the state it shows (R145). -/
theorem entryBytes_eq (e : DirEntry) :
    entryBytes e = [e.state.byte, flagByte e.isProtected, flagByte e.isLocked] ++
      match e.state with
      | .valid info => 1#8 :: (info.label.toList ++ halfBytes info.count ++ halfBytes info.length)
      | .blank => List.replicate 13 0#8
      | .invalid => List.replicate 13 0#8
      | .busy => List.replicate 13 0#8 := by
  unfold entryBytes
  cases e.state <;> rfl

/-- Settles O47: request by request. -/
theorem slotGuardRequests : Obligations.SlotGuardRequests := by
  intro s h ha
  refine ⟨fun i => ⟨fun hl => ?_, fun hl => ?_⟩, ?_, ?_⟩
  · refine taking_answered ha ?_
    rw [ownSlotUnprotect, inRange_natByte_32]
    exact if_pos hl
  · refine request_replied ha 0x54#8 (fun t => t.setSlot i { t.slot i with isProtected := false }) .ok _ ?_ rfl rfl
    have open' : ((s.accepted h 0x54#8).slot i).isLocked = false := hl
    simp only [ownSlotUnprotect, inRange_natByte_32, open', guardBytes]
    rfl
  · exact request_replied ha 0x56#8 (fun t => { t with psc := { t.psc with frozen := true } }) .ok [] rfl rfl rfl
  · refine (taking_answered ha (r := listBytes s) rfl).trans ?_
    simp only [listBytes, entryBytes_eq] <;> rfl

/-! ## The rebuild (R134, R136) -/

theorem allErased_iff (l : List Byte) : allErased l = true ↔ ∀ b ∈ l, b = 0xFF#8 := by
  simp [allErased]

/-- A slot whose header is not erased is VALID when its image is accepted, else INVALID (R134). -/
theorem classifySlot_written {m : List Host.Cell} {i : Fin 32} (h : ∃ b ∈ headerOf m i.val, b ≠ 0xFF#8) :
    classifySlot m i = if imageAccepted m i.val then
      .valid ⟨labelAt (headerOf m i.val) 16, halfAt (headerOf m i.val) 6, halfAt (headerOf m i.val) 8⟩ else .invalid := by
  have written : ¬ allErased (headerOf m i.val) = true := by
    rw [allErased_iff]
    push Not
    exact h
  simp only [classifySlot, if_neg written]

theorem classifySlot_blank {m : List Host.Cell} {i : Fin 32} (h : ∀ b ∈ headerOf m i.val, b = 0xFF#8) :
    classifySlot m i = .blank := by
  simp only [classifySlot, if_pos ((allErased_iff _).2 h)]

/-- Settles O57: the directory slot by slot. -/
theorem rebuildClassifiesSlots : Obligations.RebuildClassifiesSlots := by
  intro s live stage
  refine ⟨directoryRebuild s, taking_live live _, ?_, fun i => ?_⟩
  · simp only [directoryRebuild, if_pos stage]
  · have entry : (directoryRebuild s).slot i = ⟨classifySlot s.nv.mem i, true, s.nv.locks[i]⟩ := by
      simp [directoryRebuild, stage, State.slot]
    rw [entry]
    refine ⟨rfl, rfl, fun h => classifySlot_blank h, fun written good => ?_, fun written bad => ?_⟩
    · refine (classifySlot_written written).trans (if_pos ?_)
      exact decide_eq_true good
    · refine (classifySlot_written written).trans (if_neg ?_)
      exact fun h => bad (of_decide_eq_true h)

/-! ## The end of a lock programming (R131, R165) -/

section
variable {s : State} {op : StoreOp} {i : Fin 32} (fusing : s.psc.engine = .fusing op i)
include fusing

theorem fuseProgramComplete_set {blown : Bool} (h : blown = true ∨ s.nv.locks[i] = true) :
    fuseProgramComplete blown s =
      (State.replyTo
        { s with
          nv := { s.nv with locks := s.nv.locks.set i true }
          psc := { s.psc with dir := s.psc.dir.set i { s.slot i with isLocked := true, isProtected := true } } }
        op .ok []).engineFree := by
  have bit : (s.nv.locks[i] || blown) = true := by
    rcases h with rfl | h
    · exact Bool.or_true _
    · rw [h, Bool.true_or]
  unfold fuseProgramComplete
  rw [fusing]
  simp only [bit, if_true]
  rfl

theorem fuseProgramComplete_clear (h : s.nv.locks[i] = false) :
    fuseProgramComplete false s = (s.replyTo op .storeFault [17#8]).engineFree := by
  have same : s.nv.locks.set i false = s.nv.locks := by
    rw [← h]
    exact Vector.set_getElem_self _
  simp only [fuseProgramComplete, fusing, h, Bool.or_false, same, Bool.false_eq_true, if_false]

end

/-! ## Suspensions (R166 to R169) -/

section
variable {s : State}

theorem chooseUnder_load {op : StoreOp} (h : s.nextLoad = some op) (x : Suspended) :
    s.chooseUnder x = { s with psc := { s.psc with
      queue := s.psc.queue.eraseP (· == op), engine := .readingUnderSuspend op x } } := by
  rw [State.chooseUnder, h]
  rfl

theorem chooseUnder_resumes (h : s.nextLoad = none) (x : Suspended) : s.chooseUnder x = s.resume x := by
  rw [State.chooseUnder, h]

theorem suspend_load {op : StoreOp} (h : s.nextLoad = some op) (x : Suspended) :
    s.suspend x = { s with psc := { s.psc with
      suspending := false, queue := s.psc.queue.eraseP (· == op), engine := .readingUnderSuspend op x } } :=
  chooseUnder_load (s := { s with psc := { s.psc with suspending := false } }) h x

theorem nextPages_begins (h : s.nextLoad = none ∨ s.psc.guard = true) (w : Work) (pages : List (Fin 16)) :
    s.nextPages w pages = { s with psc := { s.psc with engine := .programming w pages, suspending := false } } := by
  refine if_neg ?_
  rcases h with h | h <;> simp [State.wantsSuspend, h]

theorem nextPages_suspends {op : StoreOp} (h : s.nextLoad = some op) (guard : s.psc.guard = false) (w : Work)
    (pages : List (Fin 16)) :
    s.nextPages w pages = { s with psc := { s.psc with
      suspending := false, queue := s.psc.queue.eraseP (· == op)
      engine := .readingUnderSuspend op (.program w pages) } } :=
  (if_pos (by simp [State.wantsSuspend, h, guard])).trans (suspend_load h _)

section
variable {w : Work} (erasing : s.psc.engine = .erasing w)
include erasing

theorem suspendEffect_load (suspending : s.psc.suspending = true) {op : StoreOp} (h : s.nextLoad = some op) :
    suspendEffect s = { s with psc := { s.psc with
      suspending := false, queue := s.psc.queue.eraseP (· == op)
      engine := .readingUnderSuspend op (.erase w) } } := by
  simp only [suspendEffect, erasing, suspending, h, Option.isSome_some, if_true, Bool.not_true, Bool.false_eq_true,
    if_false, suspend_load h]

theorem suspendEffect_none (suspending : s.psc.suspending = true) (h : s.nextLoad = none) :
    suspendEffect s = { s with psc := { s.psc with suspending := false } } := by
  simp only [suspendEffect, erasing, suspending, h, Option.isSome_none, Bool.not_true, Bool.false_eq_true, if_false]

theorem judge_erasing :
    s.judge = if s.wantsSuspend then { s with psc := { s.psc with suspending := true } } else s := by
  rw [State.judge, erasing]

/-- In an erase the conditions are judged as the guard stops (R169). -/
theorem resumeGuardExpiry_erasing (guard : s.psc.guard = true) :
    resumeGuardExpiry s = { s with psc :=
      { s.psc with guard := false, suspending := s.psc.suspending || s.nextLoad.isSome } } := by
  have judged := judge_erasing (s := { s with psc := { s.psc with guard := false } }) erasing
  have wants : State.wantsSuspend { s with psc := { s.psc with guard := false } } = s.nextLoad.isSome := Bool.and_true _
  rw [resumeGuardExpiry, if_pos guard, judged, wants]
  cases s.nextLoad.isSome with
  | false => simp only [Bool.or_false, Bool.false_eq_true, if_false]
  | true => simp only [Bool.or_true, if_true]

end

theorem resumeGuardExpiry_other (h : ∀ w, s.psc.engine ≠ .erasing w) (guard : s.psc.guard = true) :
    resumeGuardExpiry s = { s with psc := { s.psc with guard := false } } := by
  rw [resumeGuardExpiry, if_pos guard]
  unfold State.judge
  split
  · exact absurd ‹_› (h _)
  · rfl

end

/-- Settles O52: the lock programming by its bit, the suspensions by the next load. -/
theorem lockAndSuspension : Obligations.LockAndSuspension := by
  constructor
  · intro s live
    have step {f : State → State} {t : State} (h : f s = t) : s.taking f = .next t.arbitrated := by
      rw [taking_live live, h]
    refine ⟨fun op i fusing => ⟨fun blown h => step (fuseProgramComplete_set fusing h),
      fun h => step (fuseProgramComplete_clear fusing h)⟩, fun w erasing suspending =>
        ⟨fun op h => step (suspendEffect_load erasing suspending h), fun h => step (suspendEffect_none erasing suspending h)⟩,
      fun guard => ⟨fun w erasing => step (resumeGuardExpiry_erasing erasing guard),
        fun h => step (resumeGuardExpiry_other h guard)⟩⟩
  · intro s
    exact ⟨fun w pages => ⟨fun h => nextPages_begins h w pages, fun op h guard => nextPages_suspends h guard w pages⟩,
      fun x => ⟨fun h => chooseUnder_resumes h x, fun op h => chooseUnder_load h x⟩⟩

/-! ## The payload of a slot image (R132, R133, R158; table 10.4) -/

/-- The items of a record, unused ones 0 (table 10.4, R202). -/
def Record.raw : Record → RawRecord
  | .single t reg v => ⟨1#8, natByte t.val, reg, 0#8, 0#16, [v]⟩
  | .run t reg vs => ⟨2#8, natByte t.val, reg, 0#8, 0#16, vs⟩
  | .scatter t reg st vs => ⟨3#8, natByte t.val, reg, st.byte, 0#16, vs⟩
  | .poll t reg mask expect attempts gap => ⟨4#8, natByte t.val, reg, gap, attempts, [mask, expect]⟩
  | .wait l d => ⟨5#8, natByte l.val, d, 0#8, 0#16, []⟩
  | .setpoint n v => ⟨6#8, natByte n.val, 0#16, 0#8, 0#16, [v]⟩

/-- A record's bytes are its items on the wire. -/
theorem Record.bytes_eq (r : Record) : r.bytes = recordWire r.raw := by
  have absent : halfBytes 0#16 = [0#8, 0#8] := rfl
  have counts : natByte 0 = 0#8 ∧ natByte 1 = 1#8 ∧ natByte 2 = 2#8 := ⟨rfl, rfl, rfl⟩
  cases r <;> simp [Record.bytes, recordWire, Record.raw, absent, counts]

/-- In its ranges, a record is what its items spell (R6 to R12). -/
theorem recordOf_raw {r : Record} (h : r.inRange = true) : recordOf r.raw = some r := by
  cases r with
  | single t reg v => rw [Record.raw, recordOf_single, inRange_natByte_16, Option.map_some]
  | run t reg vs =>
    simp only [Record.inRange, Bool.and_eq_true, decide_eq_true_eq] at h
    rw [Record.raw, recordOf_run, if_pos h, inRange_natByte_16, Option.map_some]
  | scatter t reg st vs =>
    simp only [Record.inRange, Bool.and_eq_true, decide_eq_true_eq] at h
    have stride : strideOf st.byte = some st := by cases st <;> rfl
    rw [Record.raw, recordOf_scatter, if_pos h, inRange_natByte_16, Option.bind_some, stride, Option.map_some]
  | poll t reg mask expect attempts gap =>
    simp only [Record.inRange, Bool.and_eq_true, decide_eq_true_eq, bne_iff_ne, beq_iff_eq, and_assoc] at h
    rw [Record.raw, recordOf_poll, if_pos h, inRange_natByte_16, Option.map_some]
  | wait l d =>
    simp only [Record.inRange, bne_iff_ne] at h
    rw [Record.raw, recordOf_wait, if_pos h, inRange_natByte_4, Option.map_some]
  | setpoint n v => rw [Record.raw, recordOf_setpoint, inRange_natByte_4, Option.map_some]

/-- The count byte of a record says how many values it has. -/
theorem Record.values_lt {r : Record} (h : r.inRange = true) : r.raw.values.length < 256 := by
  cases r with
  | run t reg vs | scatter t reg st vs =>
    simp only [Record.inRange, Bool.and_eq_true, decide_eq_true_eq] at h
    simp only [Record.raw]
    omega
  | _ => simp [Record.raw]

theorem length_recordWire (r : RawRecord) : (recordWire r).length = 8 + 4 * r.values.length := by
  have values (vs : List Val) : (vs.flatMap valBytes).length = 4 * vs.length := by
    induction vs with
    | nil => rfl
    | cons v vs ih => simp only [List.flatMap_cons, List.length_append, length_valBytes, ih, List.length_cons]; omega
  simp only [recordWire, List.length_append, length_halfBytes, List.length_cons, List.length_nil, values]

/-- The items of a record read back from the wire (table 10.4). -/
theorem rawRecordAt_recordWire (r : RawRecord) (rest : List Byte) :
    rawRecordAt (recordWire r ++ rest) 0 r.values.length = r := by
  obtain ⟨form, which, word, small, attempts, values⟩ := r
  have hword := halfAt_append_right [form, which]
    (halfBytes word ++ ([small, natByte values.length] ++ (halfBytes attempts ++ (values.flatMap valBytes ++ rest)))) 0
  have hattempts := halfAt_append_right ([form, which] ++ (halfBytes word ++ [small, natByte values.length]))
    (halfBytes attempts ++ (values.flatMap valBytes ++ rest)) 0
  have hvalues := valuesAt_flatMap ([form, which] ++ (halfBytes word ++ ([small, natByte values.length] ++
    halfBytes attempts))) rest values
  rw [halfAt_halfBytes] at hword hattempts
  simp only [List.append_assoc] at hattempts hvalues
  simp only [rawRecordAt, recordWire, List.append_assoc, RawRecord.mk.injEq]
  exact ⟨rfl, rfl, hword, rfl, hattempts, hvalues⟩

/-- The count byte on the wire. -/
theorem countByte_recordWire (r : RawRecord) (h : r.values.length < 256) (rest : List Byte) :
    (byteAt (recordWire r ++ rest) 5).toNat = r.values.length := by
  have : byteAt (recordWire r ++ rest) 5 = natByte r.values.length := rfl
  rw [this, natByte, BitVec.toNat_ofNat]
  exact Nat.mod_eq_of_lt h

/-- The first record of a payload is read, and what follows it is left. -/
theorem parseRecords_cons {r : Record} (h : r.inRange = true) (k : Nat) (rest : List Byte) :
    parseRecords (k + 1) (r.bytes ++ rest) = (parseRecords k rest).map (r :: ·) := by
  have count := countByte_recordWire r.raw (Record.values_lt h) rest
  have whole := length_recordWire r.raw
  rw [Record.bytes_eq]
  obtain ⟨b, l, hl⟩ : ∃ b l, recordWire r.raw ++ rest = b :: l := ⟨_, _, rfl⟩
  have bound : ¬ (b :: l).length < 8 + 4 * r.raw.values.length := by
    rw [← hl, List.length_append, whole]
    omega
  rw [hl] at count ⊢
  rw [parseRecords]
  simp only [count, if_neg bound]
  rw [← hl, rawRecordAt_recordWire, recordOf_raw h, ← whole, List.drop_left]

theorem parseRecords_bytes {l : List Record} (h : ∀ r ∈ l, r.inRange = true) {k : Nat} (hk : l.length ≤ k) :
    parseRecords k (l.flatMap Record.bytes) = some l := by
  induction l generalizing k with
  | nil => cases k <;> rfl
  | cons r l ih =>
    cases k with
    | zero => cases hk
    | succ k =>
      rw [List.flatMap_cons, parseRecords_cons (h r List.mem_cons_self),
        ih (fun x hx => h x (List.mem_cons_of_mem r hx)) (Nat.le_of_succ_le_succ hk)]
      rfl

theorem length_payload (l : List Record) : (l.flatMap Record.bytes).length = payloadLength l := by
  simp only [List.length_flatMap, Record.length_bytes, payloadLength]

/-- A record takes 8 bytes at least, so that a payload has as many bytes as records. -/
theorem length_le_payload (l : List Record) : l.length ≤ (l.flatMap Record.bytes).length := by
  induction l with
  | nil => exact le_rfl
  | cons r l ih =>
    have := length_recordWire r.raw
    rw [← Record.bytes_eq] at this
    simp only [List.flatMap_cons, List.length_append, List.length_cons]
    omega

/-- Settles O55: record by record. -/
theorem payloadReadsBack : Obligations.PayloadReadsBack := fun l h =>
  ⟨length_payload l, parseRecords_bytes h (length_le_payload l)⟩

end Sys2Proof.Machine
end

section
/-! SUPPORT. The ends of an erase and of a page program, and what a failed one leaves (R130, R154, R155, R157, R161, R163,
R180). -/

namespace Sys2Proof.Machine

/-! ## Units that read blank (R134, R180) -/

/-- The unit reads BLANK: as a slot, and as the setup area. -/
def readsBlank (m : List Host.Cell) (u : Nat) : Prop :=
  (∀ i : Fin 32, u = i.val → classifySlot m i = .blank) ∧ (u = 32 → readSetup m = (.blank, none))

/-- A unit whose page 0 reads erased reads BLANK. -/
theorem readsBlank_of_pageZero {m : List Host.Cell} {u : Nat}
    (h : ∀ k < Config.pageBytes, Memory.read m (unitBase u + k) = 0xFF#8) : readsBlank m u := by
  constructor
  · rintro i rfl
    have header : allErased (headerOf m i.val) = true :=
      allErased_readAll fun k hk => h k (lt_trans hk (by decide))
    exact classifySlot_blank ((allErased_iff _).1 header)
  · rintro rfl
    have header : allErased (Memory.readAll m (unitBase Config.setupUnit) 16) = true :=
      allErased_readAll fun k hk => h k (lt_trans hk (by decide))
    simp only [readSetup, header, if_true]

/-- A page that reads as a run of one byte. -/
theorem read_of_readAll_replicate {m : List Host.Cell} {a n : Nat} {b : Byte}
    (h : Memory.readAll m a n = List.replicate n b) {k : Nat} (hk : k < n) : Memory.read m (a + k) = b := by
  have at' := congrArg (fun l : List Byte => l[k]?) h
  simp only [Memory.getElem?_readAll, if_pos hk, List.getElem?_replicate] at at'
  exact Option.some.inj at'

/-! ## The verify of an erase (R130) -/

theorem mem_write_self (m : List Host.Cell) (a : Nat) {b : Byte} (hb : b ≠ 0xFF#8) : (a, b) ∈ Memory.write m a b := by
  induction m with
  | nil => simp [Memory.write, hb]
  | cons c m ih =>
    unfold Memory.write
    split_ifs
    · exact List.mem_cons_self
    · exact List.mem_cons_self
    · exact List.mem_cons_of_mem c ih

/-- A unit with a byte that does not read 0xFF is not erased. -/
theorem not_unitErased {m : List Host.Cell} {u a : Nat} (ha : a / Config.unitBytes = u)
    (h : Memory.read m a ≠ 0xFF#8) : Memory.unitErased m u = false :=
  Bool.eq_false_iff.2 fun he => h (read_of_unitErased he ha)

theorem unitErased_eraseUnit (m : List Host.Cell) (u : Nat) : Memory.unitErased (Memory.eraseUnit m u) u = true :=
  List.all_eq_true.2 fun _ hc => (List.mem_filter.1 hc).2

theorem unitBase_div {u o : Nat} (ho : o < Config.unitBytes) : (unitBase u + o) / Config.unitBytes = u := by
  simp only [unitBase, Config.unitBytes] at ho ⊢
  omega

/-- A byte that the verify does not name reads erased. -/
theorem read_found_unnamed (m : List Host.Cell) {u o : Nat} (ho : o < Config.unitBytes) :
    Memory.read (Memory.eraseUnit m u) (unitBase u + o) = 0xFF#8 :=
  read_of_unitErased (unitErased_eraseUnit m u) (unitBase_div ho)

section
variable {s : State} {w : Work} (erasing : s.psc.engine = .erasing w)
include erasing

theorem eraseComplete_failed {left : List (Nat × Byte)}
    (h : Memory.unitErased (Memory.residue (Memory.eraseUnit s.nv.mem w.op.unit) w.op.unit left) w.op.unit = false) :
    eraseComplete left s = (s.setMem (Memory.eraseFailed s.nv.mem w.op.unit left)).storeFault w 0#8 := by
  unfold eraseComplete
  rw [erasing]
  simp only [h, Bool.not_false, if_true]

theorem eraseComplete_erase {i : Fin 32} (kind : w.op.kind = .erase i) :
    eraseComplete [] s =
      (((s.setMem (Memory.eraseUnit s.nv.mem w.op.unit)).setSlotState i .blank).replyTo w.op .ok []).engineFree := by
  unfold eraseComplete
  rw [erasing]
  simp only [Memory.residue, unitErased_eraseUnit, Bool.not_true, Bool.false_eq_true, if_false, kind]

theorem eraseComplete_pages (kind : ∀ i, w.op.kind ≠ .erase i) :
    eraseComplete [] s = (s.setMem (Memory.eraseUnit s.nv.mem w.op.unit)).nextPages w (imagePages w.image) := by
  unfold eraseComplete
  rw [erasing]
  simp only [Memory.residue, unitErased_eraseUnit, Bool.not_true, Bool.false_eq_true, if_false]

end

/-! ## What a failed erase leaves (R155, R157, R163) -/

/-- The cells of a well-formed operand: inside the unit, not erased, each named once. -/
theorem residueOk_iff {left : List (Nat × Byte)} : WellFormed (.eraseComplete left) = true ↔
    (∀ c ∈ left, c.1 < Config.unitBytes ∧ c.2 ≠ 0xFF#8) ∧ (left.map (·.1)).Nodup := by
  simp [WellFormed, residueOk]

section
variable {m : List Host.Cell} (hm : Memory.wf m) {left : List (Nat × Byte)}
  (ok : (∀ c ∈ left, c.1 < Config.unitBytes ∧ c.2 ≠ 0xFF#8) ∧ (left.map (·.1)).Nodup)
include hm ok

/-- The verify finds every cell that is named. -/
theorem read_found_named (u : Nat) {c : Nat × Byte} (hc : c ∈ left) :
    Memory.read (Memory.residue (Memory.eraseUnit m u) u left) (unitBase u + c.1) = c.2 :=
  Memory.read_residue_named _ (Memory.wf_eraseUnit hm u) u left ok.2 c hc (ok.1 c hc).1

theorem found_not_erased (u : Nat) (hne : left ≠ []) :
    Memory.unitErased (Memory.residue (Memory.eraseUnit m u) u left) u = false := by
  obtain ⟨c, l, rfl⟩ := List.exists_cons_of_ne_nil hne
  refine not_unitErased (unitBase_div (ok.1 c List.mem_cons_self).1) ?_
  rw [read_found_named hm ok u List.mem_cons_self]
  exact (ok.1 c List.mem_cons_self).2

/-- Where a byte of the slot marker is not among the cells, they make up no image. -/
theorem found_not_accepted (u : Nat) {k : Nat} {v : Byte} (hk : k < 4) (hv : v = byteAt (valBytes slotMarker) k)
    (hff : v ≠ 0xFF#8) (h : (k, v) ∉ left) :
    imageAccepted (Memory.residue (Memory.eraseUnit m u) u left) u = false := by
  refine Bool.eq_false_iff.2 fun accepted => ?_
  have marker := imageAccepted_marker accepted k hk
  rw [← hv] at marker
  by_cases named : ∃ c ∈ left, c.1 = k
  · obtain ⟨c, hc, rfl⟩ := named
    rw [read_found_named hm ok u hc] at marker
    exact h (marker ▸ hc)
  · have unnamed : ∀ c ∈ left, c.1 ≠ k := fun c hc e => named ⟨c, hc, e⟩
    rw [Memory.read_residue_unnamed _ (Memory.wf_eraseUnit hm u) u left k unnamed,
      read_found_unnamed m (lt_trans hk (by decide))] at marker
    exact hff marker.symm

/-- With a marker byte missing among the cells, the last one is left as found. -/
theorem read_eraseFailed_lastMarker {u : Nat} (hu : u ≠ Config.setupUnit)
    (h : ∃ c ∈ [(0, 0xD5#8), (1, 0x93#8), (2, 0x2E#8), (3, 0x6C#8)], c ∉ left) {b : Byte} (hb : (3, b) ∈ left) :
    Memory.read (Memory.eraseFailed m u left) (unitBase u + 3) = b := by
  have markers : ∀ c ∈ [(0, 0xD5#8), (1, 0x93#8), (2, 0x2E#8), (3, 0x6C#8)],
      c.1 < 4 ∧ c.2 = byteAt (valBytes slotMarker) c.1 ∧ c.2 ≠ 0xFF#8 := by decide
  obtain ⟨c, hc, missing⟩ := h
  obtain ⟨hk, hv, hff⟩ := markers c hc
  have rejected := found_not_accepted hm ok u hk hv hff missing
  simp only [Memory.eraseFailed, if_neg hu, rejected, Bool.false_eq_true, if_false]
  exact read_found_named hm ok u hb

end

/-- A single cell, in the setup area past its header, is left as found (R155, R157, R163). -/
theorem eraseFailed_single (m : List Host.Cell) {u o : Nat} {b : Byte} (ho : o < Config.unitBytes)
    (hu : u = Config.setupUnit → 16 ≤ o) :
    Memory.eraseFailed m u [(o, b)] = Memory.write (Memory.eraseUnit m u) (unitBase u + o) b := by
  have found : Memory.residue (Memory.eraseUnit m u) u [(o, b)] = Memory.write (Memory.eraseUnit m u) (unitBase u + o) b :=
    if_pos ho
  unfold Memory.eraseFailed
  simp only [found]
  split_ifs with hs accepted
  · have past : [(o, b)].filter (fun c => Config.setupHeaderBytes ≤ c.1) = [(o, b)] := by
      simp [hu hs]
    rw [past, found]
  · exfalso
    obtain ⟨k, hk, hne⟩ : ∃ k, k < 4 ∧ k ≠ o := by
      by_cases h : o = 0
      · exact ⟨1, by omega, by omega⟩
      · exact ⟨0, by omega, by omega⟩
    have marker := imageAccepted_marker accepted k hk
    rw [Memory.read_write_other _ _ (by omega), read_found_unnamed m (lt_trans hk (by decide))] at marker
    have markers : ∀ k < 4, byteAt (valBytes slotMarker) k ≠ 0xFF#8 := by decide
    exact markers k hk marker.symm
  · rfl

theorem found_single_not_erased (m : List Host.Cell) {u o : Nat} {b : Byte} (ho : o < Config.unitBytes)
    (hb : b ≠ 0xFF#8) : Memory.unitErased (Memory.residue (Memory.eraseUnit m u) u [(o, b)]) u = false := by
  have found : Memory.residue (Memory.eraseUnit m u) u [(o, b)] = Memory.write (Memory.eraseUnit m u) (unitBase u + o) b :=
    if_pos ho
  rw [found]
  refine Bool.eq_false_iff.2 fun erased => ?_
  have := List.all_eq_true.1 erased _ (mem_write_self _ (unitBase u + o) hb)
  simp [unitBase_div ho] at this

/-! ## The read-back of a page (R130, R154) -/

/-- The operand of a page program: a whole page, or none. -/
theorem page_operand {left : Option (List Byte)} (h : left = none ∨ ∃ l, left = some l ∧ l.length = 256) (image : List Byte)
    (p : Nat) : (left.getD (imagePage image p)).length = Config.pageBytes := by
  rcases h with rfl | ⟨l, rfl, hl⟩
  · exact length_imagePage image p
  · exact hl

section
variable {s : State} {w : Work} {p : Fin 16} {pages : List (Fin 16)}
  (programming : s.psc.engine = .programming w (p :: pages)) {left : Option (List Byte)}
  (page : (left.getD (imagePage w.image p.val)).length = Config.pageBytes) {m : List Host.Cell}
  (hm : m = Memory.programAll s.nv.mem (pageBase w.op.unit p.val) (left.getD (imagePage w.image p.val)))
include programming page hm

/-- The end of a page program, by its read-back and the pages left. -/
theorem pageProgramComplete_eq :
    pageProgramComplete left s =
      if Memory.readAll m (pageBase w.op.unit p.val) Config.pageBytes ≠ imagePage w.image p.val then
        (s.setMem m).storeFault w (natByte (p.val + 1))
      else if pages.isEmpty then (s.setMem m).saveDone w
      else (s.setMem m).nextPages w pages := by
  unfold pageProgramComplete
  rw [programming]
  simp only [List.take_of_length_le (le_of_eq page), ← hm]

end

theorem saveDone_setup {s : State} {w : Work} (kind : w.op.kind = .setupSave) :
    s.saveDone w = (s.replyTo w.op .ok []).engineFree := by
  unfold State.saveDone
  rw [kind]

theorem saveDone_save {s : State} {w : Work} {g : Fin 8} {i : Fin 32} {label : Label} {info : SlotInfo}
    (kind : w.op.kind = .save g i label) (hi : w.info = some info) :
    s.saveDone w = ((s.setSlotState i (.valid info)).replyTo w.op .ok
      ([natByte i.val] ++ halfBytes info.count ++ halfBytes info.length)).engineFree := by
  unfold State.saveDone
  rw [kind, hi]

/-- A page program other than that of page 0 leaves its unit blank (R155). -/
theorem readsBlank_program {s : State} {w : Work} {p : Fin 16} {pages : List (Fin 16)}
    (programming : s.psc.engine = .programming w (p :: pages)) (law : s.workLaw) (hp : p ≠ 0) {l : List Byte}
    (hl : l.length ≤ Config.pageBytes) :
    readsBlank (Memory.programAll s.nv.mem (pageBase w.op.unit p.val) l) w.op.unit := by
  obtain ⟨blank, -⟩ := (workLaw_iff s).1 law (.program w (p :: pages)) (by rw [programming]; rfl)
  refine readsBlank_of_pageZero fun k hk => ?_
  rw [read_programPage_pageZero _ hl hp hk]
  exact read_of_readAll_replicate blank hk

/-- The pages of an image: from page 1 to its last page, then page 0 (R154, R163). -/
theorem imagePages_val {image : List Byte} {k : Fin 16} (h1 : k.val * 256 < image.length)
    (h2 : image.length ≤ k.val * 256 + 256) :
    (imagePages image).map (·.val) = (List.range (k.val + 1)).drop 1 ++ [0] := by
  have reached (p : Fin 16) : p.val * Config.pageBytes < image.length ↔ p.val ≤ k.val := by
    simp only [Config.pageBytes]
    omega
  have table : ∀ k : Fin 16, (((upTo 16).filter fun p : Fin 16 => p.val ≠ 0 ∧ p.val ≤ k.val) ++ [0]).map
      (fun p : Fin 16 => p.val) =
      (List.range (k.val + 1)).drop 1 ++ [0] := by decide
  rw [← table k]
  simp only [imagePages, reached]

/-! ## The statement -/

/-- Settles O50: the erase by its verify, the page program by its read-back and the pages left. -/
theorem eraseAndProgramEnds : Obligations.EraseAndProgramEnds := by
  intro s w live
  have step {f : State → State} {t : State} (h : f s = t) : s.taking f = .next t.arbitrated := by
    rw [taking_live live, h]
  refine ⟨fun erasing => ⟨?erased, ?pages, ?failed, ?single⟩, ?program, fun k => imagePages_val⟩
  case erased => exact fun i kind => step (eraseComplete_erase erasing kind)
  case pages =>
    refine fun kind => step (eraseComplete_pages erasing fun i h => ?_)
    rcases kind with kind | ⟨g, j, label, kind⟩ <;> rw [kind] at h <;> cases h
  case failed =>
    intro left wellFormed hne wf
    have ok := residueOk_iff.1 wellFormed
    refine ⟨Memory.eraseFailed s.nv.mem w.op.unit left,
      step (eraseComplete_failed erasing (found_not_erased wf ok _ hne)), Memory.wf_eraseFailed wf _ _,
      fun a ha => Memory.read_eraseFailed_outside _ wf _ _ a ha, fun o ho unnamed => ?_, fun hu => ?_, fun i hu => ?_⟩
    · exact Memory.read_eraseFailed_unnamed _ wf _ _ o ho fun c hc e => unnamed c.2 (e ▸ hc)
    · rw [hu]
      refine ⟨readSetup_eraseFailed _ wf left, fun o ho => Memory.read_eraseFailed_header _ wf left o ho,
        fun o b ho hc => ?_⟩
      exact Memory.read_eraseFailed_named _ wf _ left ok.2 (o, b) hc (ok.1 _ hc).1 ((if_pos rfl).mpr ho)
    · have slot : w.op.unit ≠ Config.setupUnit := by
        rw [hu, Config.setupUnit]
        omega
      refine ⟨hu ▸ classifySlot_eraseFailed _ wf i left, fun o b ho hc => ?_,
        fun missing b hb => read_eraseFailed_lastMarker wf ok slot missing hb⟩
      exact Memory.read_eraseFailed_named _ wf _ left ok.2 (o, b) hc (ok.1 _ hc).1 ((if_neg slot).mpr ho)
  case single =>
    intro o b ho hb hu
    have failed := eraseComplete_failed erasing (found_single_not_erased s.nv.mem ho hb)
    rw [eraseFailed_single s.nv.mem ho hu] at failed
    exact step failed
  case program =>
    intro p pages programming base wanted left operand m
    have page := page_operand operand w.image p.val
    have ended := pageProgramComplete_eq programming page rfl
    have within := le_of_eq page
    refine ⟨fun wf => ⟨fun a ha => Memory.read_programPage_other _ within ha, fun law hp => ?_⟩, fun fault => ?_,
      fun verified => ⟨fun more => ?_, fun last kind => ?_, fun g i label info last kind hi => ?_⟩⟩
    · exact readsBlank_program programming law hp within
    · exact step (ended.trans (if_pos fault))
    all_goals have passed := ended.trans (if_neg (not_not.2 verified))
    · exact step (passed.trans (if_neg (by simpa using more)))
    · exact step (passed.trans ((if_pos (by simpa using last)).trans (saveDone_setup kind)))
    · exact step (passed.trans ((if_pos (by simpa using last)).trans (saveDone_save kind hi)))

end Sys2Proof.Machine
end

section
/-! SUPPORT. The supply and RESETn: what abandoned array work leaves in the array, and what a reset leaves of the part
(R131, R147, R173, R174, R178, R179, R189). -/

namespace Sys2Proof.Machine

/-! ## Units that read invalid (R134, R180) -/

/-- The unit reads INVALID: as a slot, and as the setup area. -/
def readsInvalid (m : List Host.Cell) (u : Nat) : Prop :=
  (∀ i : Fin 32, u = i.val → classifySlot m i = .invalid) ∧ (u = 32 → readSetup m = (.invalid, none))

theorem take_readAll (m : List Host.Cell) (a : Nat) {k n : Nat} (hk : k ≤ n) :
    (Memory.readAll m a n).take k = Memory.readAll m a k := by
  apply List.ext_getElem?
  intro i
  rw [List.getElem?_take, Memory.getElem?_readAll, Memory.getElem?_readAll]
  split_ifs with hi hn
  · rfl
  · exact absurd (lt_of_lt_of_le hi hk) hn
  · rfl

theorem byteAt_readAll (m : List Host.Cell) (a : Nat) {k n : Nat} (hk : k < n) :
    byteAt (Memory.readAll m a n) k = Memory.read m (a + k) := by
  rw [byteAt, List.getD_eq_getElem?_getD, Memory.getElem?_readAll, if_pos hk, Option.getD_some]

/-- An item lies in the first four bytes. -/
theorem valAt_take (l : List Byte) {k : Nat} (hk : 4 ≤ k) : valAt (l.take k) 0 = valAt l 0 := by
  have at' {i : Nat} (hi : i < 4) : byteAt (l.take k) i = byteAt l i := by
    simp only [byteAt, List.getD_eq_getElem?_getD, List.getElem?_take, if_pos (lt_of_lt_of_le hi hk)]
  simp only [valAt, halfAt, at' (show 0 < 4 by decide), at' (show 0 + 1 < 4 by decide), at' (show 0 + 2 < 4 by decide),
    at' (show 0 + 2 + 1 < 4 by decide)]

/-- The first four bytes are those of the first item. -/
theorem byteAt_of_valAt {l : List Byte} {x : Val} (h : valAt l 0 = x) {k : Nat} (hk : k < 4) :
    byteAt l k = byteAt (valBytes x) k := by
  rw [← h, valBytes_valAt]
  match k, hk with
  | 0, _ | 1, _ | 2, _ | 3, _ => rfl

/-- A header partly programmed reads INVALID (R147, R180). -/
theorem readsInvalid_of_headerPartly {m : List Host.Cell} {u : Nat}
    (h : headerPartly u (Memory.readAll m (unitBase u) Config.pageBytes) = true) : readsInvalid m u := by
  simp only [headerPartly, Bool.and_eq_true, Bool.not_eq_true', bne_iff_ne] at h
  obtain ⟨written, unmarked⟩ := h
  constructor
  · rintro i rfl
    have slot : headerLength i.val = Config.headerBytes := if_neg (by have := i.isLt; simp only [Config.setupUnit]; omega)
    rw [slot, take_readAll m _ (by decide)] at written
    rw [← valAt_take _ (show 4 ≤ Config.headerBytes by decide), take_readAll m _ (by decide), markerOf_slot] at unmarked
    have rejected : imageAccepted m i.val = false := decide_eq_false fun accepted => unmarked accepted.1
    simp only [classifySlot, headerOf, written, rejected, Bool.false_eq_true, if_false]
  · rintro rfl
    have setup : headerLength 32 = 16 := rfl
    rw [setup, take_readAll m _ (by decide)] at written
    rw [← valAt_take _ (show 4 ≤ 16 by decide), take_readAll m _ (by decide)] at unmarked
    have marker : valAt (Memory.readAll m (unitBase Config.setupUnit) 16) 0 ≠ setupMarker := unmarked
    have header : allErased (Memory.readAll m (unitBase Config.setupUnit) 16) = false := written
    simp only [readSetup, header, Bool.false_eq_true, if_false, if_pos (Or.inl marker)]

/-- A page 0 with a byte programmed and a byte that is not the marker's, both among the marker's four, is partly
programmed. -/
theorem headerPartly_of_bytes {u : Nat} {page : List Byte} (long : 4 ≤ page.length) {j k : Nat} (hj : j < 4) (hk : k < 4)
    (written : byteAt page j ≠ 0xFF#8) (unmarked : byteAt page k ≠ byteAt (valBytes (markerOf u)) k) :
    headerPartly u page = true := by
  have reaches : 4 ≤ headerLength u := by
    unfold headerLength
    split_ifs <;> decide
  have notErased : allErased (page.take (headerLength u)) = false := by
    refine Bool.eq_false_iff.2 fun erased => written ?_
    have at' : (page.take (headerLength u))[j]? = some (byteAt page j) := by
      rw [List.getElem?_take, if_pos (by omega), byteAt, List.getD_eq_getElem?_getD,
        List.getElem?_eq_getElem (by omega), Option.getD_some]
    exact (allErased_iff _).1 erased _ (List.mem_of_getElem? at')
  have notMarker : valAt page 0 ≠ markerOf u := fun e => unmarked (byteAt_of_valAt e hk)
  simp [headerPartly, notErased, notMarker]

/-! ## An abandoned erase (R131, R147) -/

/-- A change of single cells, in canonical form: each byte as its own cell becomes. -/
theorem read_filterMap {m : List Host.Cell} (hm : m.Pairwise fun a b => a.1 < b.1) {f : Host.Cell → Option Host.Cell}
    (address : ∀ c d, f c = some d → d.1 = c.1) {x : Nat} (erased : ((f (x, 0xFF#8)).map Prod.snd).getD 0xFF#8 = 0xFF#8) :
    Memory.read (m.filterMap f) x = ((f (x, Memory.read m x)).map Prod.snd).getD 0xFF#8 := by
  induction m with
  | nil => exact erased.symm
  | cons c m ih =>
    obtain ⟨later, sorted⟩ := List.pairwise_cons.1 hm
    by_cases hc : c.1 = x
    · subst hc
      rw [Memory.read, if_pos rfl]
      cases hf : f c with
      | some d => rw [List.filterMap_cons_some hf, Memory.read, if_pos (address c d hf)]; rfl
      | none =>
        rw [List.filterMap_cons_none hf]
        refine Memory.read_below _ _ fun d hd => ?_
        obtain ⟨e, he, hfe⟩ := List.mem_filterMap.1 hd
        rw [address e d hfe]
        exact later e he
    · rw [Memory.read, if_neg hc, ← ih sorted]
      cases hf : f c with
      | some d => rw [List.filterMap_cons_some hf, Memory.read, if_neg (address c d hf ▸ hc)]
      | none => rw [List.filterMap_cons_none hf]

/-- What an abandoned erase leaves of each byte (R147). -/
theorem read_abandonErase {m : List Host.Cell} (hm : Memory.wf m) (u k x : Nat) :
    Memory.read (abandonErase m u k) x =
      if x / Config.unitBytes ≠ u then Memory.read m x
      else if x % Config.unitBytes < Config.pageBytes then
        if Config.erasePastPageZero k then 0xFF#8 else Memory.read m x
      else Memory.read m x ||| Config.erasedBits k x := by
  rw [abandonErase, read_filterMap hm.1 (fun c d h => ?address) ?erased]
  case address =>
    simp only at h
    split_ifs at h <;> cases h <;> rfl
  case erased =>
    have full (b : Byte) : 0xFF#8 ||| b = 0xFF#8 := BitVec.allOnes_or
    simp only [full, if_true]
    split_ifs <;> rfl
  simp only
  split_ifs with outside pageZero past full
  · rfl
  · rfl
  · rfl
  · exact full.symm
  · rfl

section
variable {m : List Host.Cell} (hm : Memory.wf m) (u k : Nat)
include hm

/-- An erase sets bits only. -/
theorem abandonErase_sets (x : Nat) :
    Memory.read m x &&& Memory.read (abandonErase m u k) x = Memory.read m x := by
  rw [read_abandonErase hm]
  split_ifs
  · exact BitVec.and_self
  · exact BitVec.and_allOnes
  · exact BitVec.and_self
  · ext i
    simp
    tauto

/-- Page 0 is as it was, or erased. -/
theorem abandonErase_pageZero :
    (∀ o < Config.pageBytes, Memory.read (abandonErase m u k) (unitBase u + o) = Memory.read m (unitBase u + o)) ∨
      ∀ o < Config.pageBytes, Memory.read (abandonErase m u k) (unitBase u + o) = 0xFF#8 := by
  have inside {o : Nat} (ho : o < Config.pageBytes) : Memory.read (abandonErase m u k) (unitBase u + o) =
      if Config.erasePastPageZero k then 0xFF#8 else Memory.read m (unitBase u + o) := by
    rw [read_abandonErase hm, if_neg, if_pos]
    all_goals
      simp only [unitBase, Config.unitBytes, Config.pageBytes] at ho ⊢
      omega
  by_cases past : Config.erasePastPageZero k = true
  · exact .inr fun o ho => (inside ho).trans (if_pos past)
  · exact .inl fun o ho => (inside ho).trans (if_neg past)

/-- With its marker clear, the unit of an abandoned erase reads BLANK or INVALID (R130, R147). -/
theorem abandonErase_class (clear : Memory.readAll m (unitBase u) 4 = [0#8, 0#8, 0#8, 0#8]) :
    readsBlank (abandonErase m u k) u ∨ readsInvalid (abandonErase m u k) u := by
  rcases abandonErase_pageZero hm u k with same | erased
  · right
    have first : byteAt (Memory.readAll (abandonErase m u k) (unitBase u) Config.pageBytes) 0 = 0#8 := by
      rw [byteAt_readAll _ _ (by decide), same 0 (by decide)]
      exact read_of_readAll_replicate (n := 4) clear (by decide)
    refine readsInvalid_of_headerPartly (headerPartly_of_bytes (j := 0) (k := 0) ?_ (by decide) (by decide) ?_ ?_)
    · rw [Memory.length_readAll]
      decide
    · rw [first]
      decide
    · rw [first, markerOf]
      split_ifs <;> decide
  · exact .inl (readsBlank_of_pageZero erased)

end

/-! ## An abandoned page program (R131, R147) -/

/-- The values an abandoned program of a page has put to the array. -/
def pageLeft (w : Work) (p : Fin 16) (k : Nat) : List Byte :=
  let wanted := imagePage w.image p.val
  let left := partialPage wanted (pageBase w.op.unit p.val) k
  if p = 0 ∧ !headerPartly w.op.unit left then markerShort wanted else left

theorem abandonPage_eq (m : List Host.Cell) (w : Work) (p : Fin 16) (k : Nat) :
    abandonPage m w p k = Memory.programAll m (pageBase w.op.unit p.val) (pageLeft w p k) := rfl

theorem length_pageLeft (w : Work) (p : Fin 16) (k : Nat) : (pageLeft w p k).length = Config.pageBytes := by
  unfold pageLeft
  simp only
  split_ifs <;> simp [markerShort, partialPage]

theorem byteAt_eq_getElem {l : List Byte} {o : Nat} (ho : o < l.length) : byteAt l o = l[o] := by
  rw [byteAt, List.getD_eq_getElem?_getD, List.getElem?_eq_getElem ho, Option.getD_some]

theorem pageBase_zero (u : Nat) : pageBase u (0 : Fin 16).val = unitBase u := by
  simp [pageBase]

/-- A value that has every bit of another keeps it through a program (R129). -/
theorem and_and_of_and_eq {b c : Byte} (a : Byte) (h : b &&& c = b) : a &&& b &&& (a &&& c) = a &&& b :=
  calc a &&& b &&& (a &&& c)
      _ = a &&& a &&& (b &&& c) := by ac_rfl
      _ = a &&& b := by rw [BitVec.and_self, h]

/-- They have every bit of the image set. -/
theorem and_pageLeft (w : Work) (p : Fin 16) (k : Nat) {o : Nat} (ho : o < Config.pageBytes) :
    byteAt (imagePage w.image p.val) o &&& byteAt (pageLeft w p k) o = byteAt (imagePage w.image p.val) o := by
  have within : o < (imagePage w.image p.val).length := by rwa [length_imagePage]
  unfold pageLeft
  simp only
  split_ifs
  · rw [byteAt_eq_getElem within, byteAt_eq_getElem (by simpa [markerShort] using within)]
    simp only [markerShort, List.getElem_set]
    split_ifs
    · exact BitVec.and_allOnes
    · exact BitVec.and_self
  · rw [byteAt_eq_getElem within, byteAt_eq_getElem (by simpa [partialPage] using within)]
    simp only [partialPage, List.getElem_mapIdx]
    ext i
    simp
    tauto

theorem read_abandonPage {m : List Host.Cell} (hm : Memory.wf m) (w : Work) (p : Fin 16) (k : Nat) {o : Nat}
    (ho : o < Config.pageBytes) : Memory.read (abandonPage m w p k) (pageBase w.op.unit p.val + o) =
      Memory.read m (pageBase w.op.unit p.val + o) &&& byteAt (pageLeft w p k) o := by
  have within : o < (pageLeft w p k).length := by rwa [length_pageLeft]
  rw [abandonPage_eq, Memory.read_programAll m hm _ _ o within, byteAt_eq_getElem within]

/-- Of page 0 they make a header partly programmed (R147). -/
theorem headerPartly_pageLeft {w : Work} (marker : valAt w.image 0 = markerOf w.op.unit) (k : Nat) :
    headerPartly w.op.unit (pageLeft w 0 k) = true := by
  have markers : byteAt (valBytes (markerOf w.op.unit)) 0 ≠ 0xFF#8 ∧ byteAt (valBytes (markerOf w.op.unit)) 0 ≠ 0#8 ∧
      byteAt (valBytes (markerOf w.op.unit)) 3 ≠ 0xFF#8 := by
    unfold markerOf
    split_ifs <;> decide
  obtain ⟨first, present, last⟩ := markers
  unfold pageLeft
  simp only [true_and, Bool.not_eq_true']
  split_ifs with whole
  · have long : 4 ≤ (markerShort (imagePage w.image (0 : Fin 16).val)).length := by
      simp only [markerShort, List.length_set, length_imagePage]
      decide
    have image : byteAt w.image 0 = byteAt (valBytes (markerOf w.op.unit)) 0 := byteAt_of_valAt marker (by decide)
    have start : byteAt (markerShort (imagePage w.image (0 : Fin 16).val)) 0 = byteAt w.image 0 := by
      cases hi : w.image with
      | nil => exact absurd (image.symm.trans (by rw [hi]; rfl)) present
      | cons b l => rfl
    have short : byteAt (markerShort (imagePage w.image (0 : Fin 16).val)) 3 = 0xFF#8 := by
      rw [byteAt_eq_getElem (by omega)]
      exact List.getElem_set_self _
    refine headerPartly_of_bytes long (j := 0) (k := 3) (by decide) (by decide) ?_ ?_
    · rwa [start, image]
    · rw [short]
      exact last.symm
  · simpa using whole

/-- The unit of an abandoned program of page 0 reads INVALID (R147, R180). -/
theorem readsInvalid_abandonPage {m : List Host.Cell} (hm : Memory.wf m) {w : Work} (k : Nat)
    (blank : Memory.readAll m (unitBase w.op.unit) Config.pageBytes = List.replicate Config.pageBytes 0xFF#8)
    (marker : valAt w.image 0 = markerOf w.op.unit) : readsInvalid (abandonPage m w 0 k) w.op.unit := by
  refine readsInvalid_of_headerPartly ?_
  have page : Memory.readAll (abandonPage m w 0 k) (unitBase w.op.unit) Config.pageBytes = pageLeft w 0 k := by
    apply List.ext_getElem
    · rw [Memory.length_readAll, length_pageLeft]
    · intro o ho ho'
      rw [Memory.length_readAll] at ho
      rw [← byteAt_eq_getElem, byteAt_readAll _ _ ho, ← byteAt_eq_getElem]
      have read := read_abandonPage hm w 0 k ho
      rw [pageBase_zero] at read
      refine read.trans ?_
      rw [read_of_readAll_replicate blank ho]
      exact BitVec.allOnes_and
  rw [page]
  exact headerPartly_pageLeft marker k

/-! ## Abandoned work, by the engine (R173) -/

theorem abandoned_id (n : Nv) (e : Engine) (k : Nat) : (n.abandoned e k).id = n.id := by
  unfold Nv.abandoned
  split
  case h_4 => split_ifs <;> rfl
  all_goals rfl

theorem abandoned_of_eraseWork (n : Nv) {e : Engine} {w : Work} (k : Nat) (h : e.eraseWork = some w) :
    n.abandoned e k = { n with mem := abandonErase n.mem w.op.unit k } := by
  cases e with
  | erasing v => cases h; rfl
  | suspendedErase v => cases h; rfl
  | readingUnderSuspend op x =>
    cases x with
    | erase v => cases h; rfl
    | program v pages => cases h
  | _ => cases h

/-- Whether the page that is next had begun is a free value (R132, R147). -/
theorem abandoned_programming (n : Nv) (w : Work) (p : Fin 16) (rest : List (Fin 16)) (k : Nat) :
    n.abandoned (.programming w (p :: rest)) k =
      if Config.pageBegun k then { n with mem := abandonPage n.mem w p k } else n := rfl

/-- A program that does not go on at the moment has begun no page. -/
theorem abandoned_of_programWork (n : Nv) {e : Engine} {w : Work} {pages : List (Fin 16)} (k : Nat)
    (h : e.programWork = some (w, pages)) (rests : e ≠ .programming w pages) : n.abandoned e k = n := by
  cases e with
  | programming v l => cases h; exact absurd rfl rests
  | readingUnderSuspend op x =>
    cases x with
    | erase v => cases h
    | program v l => rfl
  | suspendedProgram v l => rfl
  | _ => cases h

/-! ## What a reset leaves (R173, R174, R178, R179, R189) -/

/-- Every block at its reset values, with the store's work abandoned (R27, R30, R35, R75, R102, R103, R173). -/
def State.BlocksAtReset (s t : State) : Prop :=
  t.gtb = Gtb.reset ∧ (∀ g, t.account g = ⟨0, false, false⟩) ∧ (∀ i, t.target i = TargetEntry.reset) ∧
  (∀ l, t.lane l = Lane.reset) ∧ t.sau = Sau.reset ∧ (∀ n, t.loop n = LoopEntry.reset) ∧
  t.psc.queue = [] ∧ t.psc.engine = .idle ∧ t.psc.guard = false ∧
  t.nv = s.nv.abandoned s.psc.engine s.fresh ∧ t.pending = s.pending

/-- A start has begun, with its cause and pins (R174, R179). -/
def State.Begun (s t : State) (c : Cause) (pins : Pins) : Prop :=
  t.pins = pins ∧ t.suc = Suc.begun c ∧ t.hpt = Hpt.reset (baudOf pins.straps) ∧
  t.psc.uid = s.nv.id ∧ ∀ i : Fin 32, (t.slot i).isLocked = t.nv.locks[i]

section
variable (s : State) (p : Pins)

theorem blocksAtReset_beginStart (c : Cause) (x : Straps) :
    s.BlocksAtReset (State.beginStart { s with pins := p } c x) := by
  refine ⟨rfl, fun g => ?_, fun i => ?_, fun l => ?_, rfl, fun n => ?_, rfl, rfl, rfl, rfl, rfl⟩
  all_goals exact Vector.getElem_replicate _

theorem blocksAtReset_hold (fresh : Bool) : s.BlocksAtReset (State.hold { s with pins := p } fresh) := by
  refine ⟨rfl, fun g => ?_, fun i => ?_, fun l => ?_, rfl, fun n => ?_, rfl, rfl, rfl, rfl, rfl⟩
  all_goals exact Vector.getElem_replicate _

theorem begun_beginStart (c : Cause) (x : Straps) :
    s.Begun (State.beginStart { s with pins := p } c x) c { p with straps := x } := by
  refine ⟨rfl, rfl, rfl, abandoned_id .., fun i => ?_⟩
  rw [State.beginStart, fuseRead_slot]
  rfl

end

/-! ## The statement -/

/-- Settles O56: the array by the engine's work, and each pin event by the reset it makes. -/
theorem powerAndResetStart : Obligations.PowerAndResetStart := by
  refine ⟨⟨rfl, rfl, rfl, rfl⟩, fun s wf law => ?array, fun s straps => ?pins⟩
  case array =>
    have ready := (workLaw_iff s).1 law
    refine ⟨abandoned_id .., fun w erasing => ?erase, ?program, fun w pages work rests => ?rests, fun op i fusing => ?fuse,
      ?idle⟩
    case erase =>
      obtain ⟨clear, -⟩ := ready _ (Engine.eraseWork_eq_some.1 erasing)
      rw [abandoned_of_eraseWork s.nv s.fresh erasing]
      exact ⟨rfl, abandonErase_class wf _ _ clear, abandonErase_sets wf _ _, abandonErase_pageZero wf _ _,
        fun a ha => read_abandonErase_other _ _ ha⟩
    case program =>
      rintro w _ programming p rest rfl
      obtain ⟨blank, -, -, marker⟩ := ready (.program w (p :: rest)) (by rw [programming]; rfl)
      have erased : readsBlank s.nv.mem w.op.unit :=
        readsBlank_of_pageZero fun k hk => read_of_readAll_replicate blank hk
      rw [programming, abandoned_programming]
      by_cases begun : Config.pageBegun s.fresh = true
      · rw [if_pos begun]
        refine ⟨rfl, fun hp => ?_, ?_, fun o ho => ?_, fun a ha => read_abandonPage_other _ w p _ ha⟩
        · exact readsBlank_program programming law hp (le_of_eq (length_pageLeft ..))
        · rintro rfl
          rw [if_pos begun]
          exact readsInvalid_abandonPage wf _ blank marker
        · have read := read_abandonPage wf w p s.fresh ho
          simp only [pageBase, unitBase, Config.unitBytes, Config.pageBytes] at read
          simp only [read]
          refine ⟨?_, and_and_of_and_eq _ (and_pageLeft w p s.fresh ho)⟩
          rw [← BitVec.and_assoc, BitVec.and_self]
      · rw [if_neg begun]
        refine ⟨rfl, fun _ => erased, fun _ => ?_, fun o _ => ⟨BitVec.and_self, ?_⟩, fun _ _ => rfl⟩
        · rw [if_neg begun]
          exact ⟨rfl, erased⟩
        · rw [BitVec.and_assoc, BitVec.and_comm _ (Memory.read _ _), ← BitVec.and_assoc, BitVec.and_self]
    case rests =>
      obtain ⟨blank, -⟩ := ready _ (Engine.programWork_eq_some.1 work)
      rw [abandoned_of_programWork s.nv s.fresh work rests]
      exact ⟨rfl, readsBlank_of_pageZero fun k hk => read_of_readAll_replicate blank hk⟩
    case fuse =>
      rw [fusing]
      exact ⟨rfl, Config.fuseBlown s.fresh, rfl⟩
    case idle =>
      rintro (idle | ⟨op, reading⟩)
      · rw [idle]; rfl
      · rw [reading]; rfl
  case pins =>
    refine ⟨⟨powerOn straps s, rfl, ?on⟩, ?fail, ?assert, fun low => ⟨fun power => ?release, fun dead => ?unpowered⟩,
      fun high => ?high⟩
    case on =>
      unfold powerOn
      split_ifs with high
      · exact ⟨blocksAtReset_beginStart s _ .power straps, fun _ => begun_beginStart s _ .power straps,
          fun low => absurd (high.symm.trans low) (by decide)⟩
      · exact ⟨blocksAtReset_hold s _ true, fun h => absurd h high, fun _ => ⟨rfl, rfl, rfl, rfl, rfl⟩⟩
    case fail => exact ⟨_, rfl, blocksAtReset_hold s _ true, rfl, rfl, rfl, rfl, rfl⟩
    case assert => exact ⟨_, rfl, blocksAtReset_hold s _ s.suc.fresh, rfl, rfl, rfl, rfl, rfl⟩
    case release =>
      have started : resetnRelease straps s = State.beginStart
          { s with pins := { s.pins with resetn := true, straps := straps } } (if s.suc.fresh then .power else .pin)
          straps := by
        simp only [resetnRelease, low, power, Bool.false_eq_true, if_false, if_true]
      exact ⟨_, congrArg Host.Outcome.next started, blocksAtReset_beginStart s _ _ straps,
        begun_beginStart s _ _ straps⟩
    case unpowered =>
      refine congrArg Host.Outcome.next ?_
      simp only [resetnRelease, low, dead, Bool.false_eq_true, if_false]
    case high => exact congrArg Host.Outcome.next (if_pos high)

end Sys2Proof.Machine
end

section
/-! SUPPORT. The transmitter: how a reply and a notice join their queues, and which frame follows one that ends (R151, R187,
R189, R193 to R196, R206). -/

namespace Sys2Proof.Machine

/-! ## Replies (R151, R193, R194) -/

/-- A request without an outstanding entry gets no reply (R193). -/
theorem answer_unlisted {s : State} {tag : Byte} (h : ∀ o ∈ s.hpt.outstanding, o.tag ≠ tag) (st : Status)
    (result : List Byte) : s.answer tag st result = s := by
  have absent : s.hpt.outstanding.find? (·.tag == tag) = none := List.find?_eq_none.2 fun o ho => by simp [h o ho]
  simp only [State.answer, Hpt.answer, absent]

/-- The reply carries its entry's code, and takes the entry out of the table (R193, R194). -/
theorem answer_listed {s : State} {tag : Byte} {front back : List Outstanding} {o : Outstanding}
    (listed : s.hpt.outstanding = front ++ o :: back) (ho : o.tag = tag) (first : ∀ x ∈ front, x.tag ≠ tag) (st : Status)
    (result : List Byte) :
    s.answer tag st result = { s with hpt := { s.hpt with
      outstanding := front ++ back
      replies := s.hpt.replies ++ [⟨tag, o.code ||| 0x80#8, st.byte :: result, false⟩] } } := by
  have found : s.hpt.outstanding.find? (·.tag == tag) = some o :=
    List.find?_eq_some_iff_append.2 ⟨by simp [ho], front, back, listed, fun x hx => by simp [first x hx]⟩
  have erased : s.hpt.outstanding.eraseP (·.tag == tag) = front ++ back := by
    rw [listed, List.eraseP_append_right _ fun x hx => by simp [first x hx], List.eraseP_cons_of_pos (by simp [ho])]
  simp only [State.answer, Hpt.answer, found, erased]

/-- An internal store operation has no reply; another is answered with its tag (R151). -/
theorem replyTo_internal {op : StoreOp} (h : op.origin = none) (s : State) (st : Status) (result : List Byte) :
    s.replyTo op st result = s := by
  rw [State.replyTo, h]

theorem replyTo_requested {op : StoreOp} {tag : Byte} (h : op.origin = some tag) (s : State) (st : Status)
    (result : List Byte) : s.replyTo op st result = s.answer tag st result := by
  rw [State.replyTo, h]

/-! ## The frame a free transmitter takes (R195, R196) -/

theorem takeNotice_nil {x : Hpt} (h : x.notices = []) : x.takeNotice = x := by rw [Hpt.takeNotice, h]

/-- The head notice's frame shows the notice-lost flag, which is cleared (R195). -/
theorem takeNotice_cons {x : Hpt} {n : Notice} {ns : List Notice} (h : x.notices = n :: ns) :
    x.takeNotice = { x with
      notices := ns, lost := false
      sending := some ⟨frameBytes 0#8 n.code (flagByte x.lost :: n.payload), false⟩ } := by
  rw [Hpt.takeNotice, h]

theorem takeNotice_cut (x : Hpt) : x.takeNotice.cut = x.cut := by
  unfold Hpt.takeNotice
  split <;> rfl

theorem arbitrate_sending {x : Hpt} (h : x.sending ≠ none) : x.arbitrate = x := by
  obtain ⟨f, hf⟩ := Option.ne_none_iff_exists'.1 h
  rw [Hpt.arbitrate, hf]

/-- The oldest reply goes first (R196). -/
theorem arbitrate_reply {x : Hpt} {r : Reply} {rs : List Reply} (free : x.sending = none) (h : x.replies = r :: rs) :
    x.arbitrate = { x with replies := rs, sending := some ⟨frameBytes r.tag r.code r.body, r.full⟩ } := by
  rw [Hpt.arbitrate, free, h]

theorem arbitrate_noReply {x : Hpt} (free : x.sending = none) (h : x.replies = []) : x.arbitrate = x.takeNotice := by
  rw [Hpt.arbitrate, free, h]

/-- The Host Port with a free transmitter. -/
def Hpt.txFree (x : Hpt) : Hpt := { x with sending := none }

theorem takeNotice_txFree {x : Hpt} {n : Notice} {ns : List Notice} (h : x.notices = n :: ns) :
    x.txFree.takeNotice = { x with
      notices := ns, lost := false
      sending := some ⟨frameBytes 0#8 n.code (flagByte x.lost :: n.payload), false⟩ } :=
  takeNotice_cons (x := x.txFree) h

theorem arbitrate_txFree {x : Hpt} (h : x.replies = []) : x.txFree.arbitrate = x.txFree.takeNotice :=
  arbitrate_noReply (x := x.txFree) rfl h

/-- What is sent plays no part in where a notice joins. -/
theorem join_txFree (x : Hpt) (n : Notice) (k : Nat) : x.txFree.join n k = (x.join n k).txFree := by
  simp only [Hpt.join, apply_ite Hpt.txFree]
  rfl

/-! ## The end of a frame (R187, R196, R206) -/

/-- The frame that ends can have ended inside a partial reset, and did (R206). -/
abbrev State.endedInside (s : State) : Prop := s.hpt.cut = .past ∧ Config.endedInReset s.fresh = true

/-- The Host Port as the frame ends: a frame that ended inside a partial reset gave way to the head notice (R206). -/
def State.hptFreed (s : State) : Hpt := if s.endedInside then s.hpt.txFree.takeNotice else s.hpt.txFree

theorem freed_eq (s : State) :
    s.freed = { s with hpt := s.hptFreed, fresh := if s.hpt.cut = .past then s.fresh + 1 else s.fresh } := by
  unfold State.freed State.hptFreed State.endedInside
  by_cases past : s.hpt.cut = .past
  · simp only [past, if_true, true_and, Hpt.txFree]
  · simp only [past, if_false, false_and, Hpt.txFree]

theorem hptFreed_cut (s : State) : s.hptFreed.cut = s.hpt.cut := by
  unfold State.hptFreed
  split_ifs
  · exact takeNotice_cut _
  · rfl

/-- Where no notice waits, or the frame did not end inside a reset, the transmitter is left free. -/
theorem hptFreed_free {s : State} (h : s.hpt.notices = [] ∨ ¬ s.endedInside) :
    s.hptFreed = s.hpt.txFree := by
  unfold State.hptFreed
  split_ifs with inside
  · exact takeNotice_nil (h.resolve_right (not_not.2 inside))
  · rfl

section
variable {s : State} {f : Sending} (live : s.live = true) (sending : s.hpt.sending = some f)
include live sending

/-- The last byte of the FULL reply starts the part afresh (R187). -/
theorem transmitEnd_full (straps : Straps) (full : f.full = true) :
    exec (.transmitEnd straps) s = .next (s.beginStart .request straps).arbitrated := by
  refine (taking_live live (transmitEnd straps)).trans ?_
  simp only [transmitEnd, sending, full, if_true]

/-- After another frame the arbiter chooses, with the strap levels sampled (R189, R196). -/
theorem transmitEnd_next (straps : Straps) (full : f.full = false) {x : Hpt} (chosen : s.hptFreed.arbitrate = x) :
    exec (.transmitEnd straps) s = .next { s with
      pins := { s.pins with straps := straps }, raised := 0, hpt := { x with cut := s.hpt.cut.aged }
      fresh := if s.hpt.cut = .past then s.fresh + 1 else s.fresh } := by
  refine (taking_live live (transmitEnd straps)).trans ?_
  simp only [transmitEnd, sending, full, Bool.false_eq_true, if_false, freed_eq, State.arbitrated, hptFreed_cut, chosen]

end

theorem hptFreed_takes_reply {s : State} {r : Reply} {rs : List Reply} (hr : s.hpt.replies = r :: rs)
    (h : s.hpt.notices = [] ∨ ¬ s.endedInside) :
    s.hptFreed.arbitrate =
      { s.hpt with replies := rs, sending := some ⟨frameBytes r.tag r.code r.body, r.full⟩ } := by
  rw [hptFreed_free h]
  exact arbitrate_reply rfl hr

/-- The head notice is taken when no reply waits, or ahead of the replies by a frame that ended inside a reset (R206). -/
theorem hptFreed_takes_notice {s : State} {n : Notice} {ns : List Notice} (hn : s.hpt.notices = n :: ns)
    (h : s.hpt.replies = [] ∨ s.endedInside) :
    s.hptFreed.arbitrate = { s.hpt with
      notices := ns, lost := false
      sending := some ⟨frameBytes 0#8 n.code (flagByte s.hpt.lost :: n.payload), false⟩ } := by
  by_cases inside : s.endedInside
  · rw [State.hptFreed, if_pos inside, takeNotice_txFree hn]
    exact arbitrate_sending (Option.some_ne_none _)
  · rw [hptFreed_free (.inr inside), arbitrate_txFree (h.resolve_right inside), takeNotice_txFree hn]

theorem hptFreed_stays_free {s : State} (hr : s.hpt.replies = []) (hn : s.hpt.notices = []) :
    s.hptFreed.arbitrate = s.hpt.txFree := by
  rw [hptFreed_free (.inl hn), arbitrate_txFree hr]
  exact takeNotice_nil hn

/-! ## Notices (R195, R196, R206) -/

theorem mayPass_iff (n m : Notice) :
    n.mayPass m = true ↔ m.code ≠ n.code ∧ m.code ≠ 0x03#8 ∧
      ¬ (n.code = 0x01#8 ∧ m.code = 0x02#8 ∧ n.payload.head? = m.payload.head?) := by
  simp only [Notice.mayPass, Bool.and_eq_true, bne_iff_ne, Bool.not_eq_true', Bool.and_eq_false_iff, beq_eq_false_iff_ne,
    not_and, and_assoc, ne_comm (a := n.code), imp_iff_not_or, ne_eq, or_assoc]

/-- A notice joins behind the front of the queue and ahead of notices of its step that it may pass; with 16 waiting, the
last one is dropped (R195). -/
theorem join_passing {x : Hpt} {raised k : Nat} {n : Notice} (hk : k ≤ x.passable raised n) :
    ∃ front back : List Notice, x.notices = front ++ back ∧ back.length ≤ raised ∧ (∀ m ∈ back, n.mayPass m = true) ∧
      x.join n k = if x.notices.length < 16 then { x with notices := front ++ n :: back }
        else { x with notices := (front ++ n :: back).dropLast, lost := true } := by
  have within : k ≤ x.notices.length := hk.trans <| (List.takeWhile_sublist _).length_le.trans <|
    (List.length_take_le' ..).trans (List.length_reverse ..).le
  refine ⟨x.notices.take (x.notices.length - k), x.notices.drop (x.notices.length - k),
    (List.take_append_drop ..).symm, ?few, fun m hm => ?passed, rfl⟩
  case few =>
    rw [List.length_drop, Nat.sub_sub_self within]
    exact hk.trans (passable_le ..)
  case passed =>
    have among : x.notices.reverse.take k <+: (x.notices.reverse.take raised).takeWhile n.mayPass := by
      refine List.prefix_of_prefix_length_le (List.take_prefix ..)
        ((List.takeWhile_prefix _).trans (List.take_prefix ..)) ?_
      exact (List.length_take_le ..).trans hk
    rw [← List.reverse_reverse x.notices, List.drop_reverse] at hm
    rw [List.reverse_reverse, List.length_reverse, Nat.sub_sub_self within, List.mem_reverse] at hm
    exact List.mem_takeWhile_imp (among.subset hm)

/-- The Host Port with a notice of the step joined, at the place a free value chooses (R195; log entry 38). -/
def State.joined (s : State) (n : Notice) : Hpt :=
  s.hpt.join n (atMost (s.hpt.passable s.raised n) (Config.noticePlace s.fresh))

/-- A notice raised leaves the Host Port `h`, and the counters moved on. -/
def State.noticed (s : State) (h : Hpt) : State :=
  { s with
    hpt := h, raised := if s.hpt.notices.length < 16 then s.raised + 1 else s.raised, fresh := s.fresh + 1 }

/-- The part with a free transmitter. -/
def State.txFree (s : State) : State := { s with hpt := s.hpt.txFree }

theorem notify_eq (s : State) (code : Byte) (payload : List Byte) :
    s.notify code payload = s.noticed ((s.joined ⟨code, payload⟩).atOnce (Config.noticeAtOnce s.fresh)) := rfl

theorem notify_cut_eq (s : State) (code : Byte) (payload : List Byte) :
    s.notify code payload true = s.noticed (s.joined ⟨code, payload⟩).cutRaised := rfl

theorem noticed_txFree (s : State) (h : Hpt) : s.txFree.noticed h = s.noticed h := rfl

theorem joined_txFree (s : State) (n : Notice) : s.txFree.joined n = (s.joined n).txFree := join_txFree _ _ _

/-- Joining changes the notice queue and the notice-lost flag alone. -/
theorem joined_frame (s : State) (n : Notice) :
    (s.joined n).sending = s.hpt.sending ∧ (s.joined n).replies = s.hpt.replies ∧
      s.joined n = { s.hpt with notices := (s.joined n).notices, lost := (s.joined n).lost } := by
  unfold State.joined Hpt.join
  split <;> exact ⟨rfl, rfl, rfl⟩

section
variable {s : State} (code : Byte) (payload : List Byte)

/-- While a frame is sent, a notice waits in its queue (R196). -/
theorem notify_sending (sending : s.hpt.sending ≠ none) :
    s.notify code payload = s.noticed (s.joined ⟨code, payload⟩) := by
  obtain ⟨same, -, -⟩ := joined_frame s ⟨code, payload⟩
  rw [notify_eq, atOnce_busy (same ▸ sending)]

/-- A CUT notice behind a frame being sent, with no reply queued, leaves the mark of its reset (R206; log entry 5). -/
theorem notify_cut_sending (sending : s.hpt.sending ≠ none) :
    s.notify code payload true = s.noticed (if s.hpt.replies = [] then { s.joined ⟨code, payload⟩ with cut := .raised }
      else s.joined ⟨code, payload⟩) := by
  obtain ⟨same, replies, -⟩ := joined_frame s ⟨code, payload⟩
  have busy : (s.joined ⟨code, payload⟩).sending.isSome = true := Option.isSome_iff_ne_none.2 (same ▸ sending)
  simp only [notify_cut_eq, Hpt.cutRaised, busy, replies, Bool.true_and, List.isEmpty_iff]

/-- A free transmitter leaves a CUT notice for the reply of its reset (R206). -/
theorem notify_cut_free :
    s.txFree.notify code payload true = s.noticed (s.joined ⟨code, payload⟩).txFree := by
  rw [notify_cut_eq, joined_txFree, cutRaised_free rfl, noticed_txFree]

/-- A free transmitter with no reply queued takes the head notice at once or does not, by a free value (R196; log entry 5). -/
theorem notify_free {n : Notice} {ns : List Notice} (replies : s.hpt.replies = [])
    (head : (s.joined ⟨code, payload⟩).notices = n :: ns) :
    s.txFree.notify code payload = s.noticed (if Config.noticeAtOnce s.fresh = true then
        { s.hpt with
          notices := ns, lost := false
          sending := some ⟨frameBytes 0#8 n.code (flagByte (s.joined ⟨code, payload⟩).lost :: n.payload), false⟩ }
      else (s.joined ⟨code, payload⟩).txFree) := by
  obtain ⟨-, same, rest⟩ := joined_frame s ⟨code, payload⟩
  have none_queued : (s.joined ⟨code, payload⟩).replies = [] := same.trans replies
  rw [notify_eq, joined_txFree, atOnce_free (x := (s.joined ⟨code, payload⟩).txFree) rfl none_queued, noticed_txFree,
    arbitrate_txFree none_queued, takeNotice_txFree head, rest]
  rfl

/-- With a reply queued the notice waits (R196). -/
theorem notify_free_reply (replies : s.hpt.replies ≠ []) :
    s.txFree.notify code payload = s.noticed (s.joined ⟨code, payload⟩).txFree := by
  obtain ⟨-, same, -⟩ := joined_frame s ⟨code, payload⟩
  have queued : (s.joined ⟨code, payload⟩).txFree.replies ≠ [] := fun h => replies (same.symm.trans h)
  rw [notify_eq, joined_txFree, atOnce_reply queued, noticed_txFree]

end

/-- Settles O7: the bytes of a frame, TXD, the replies, the end of a frame by what waits, and the notices by what is sent. -/
theorem transmitterTakesRepliesFirst : Obligations.TransmitterTakesRepliesFirst := by
  refine ⟨fun tag code body => rfl, fun c => rfl, fun h => ⟨fun free => ?idle, fun f sending => ?sends⟩,
    fun s tag st result => ⟨fun unlisted => answer_unlisted unlisted st result,
      fun front o back listed ho first => answer_listed listed ho first st result,
      fun op => ⟨fun h => replyTo_internal h s st result, fun h => replyTo_requested h s st result⟩⟩,
    fun s straps f live sending => ⟨fun full => transmitEnd_full live sending straps full,
      fun full => ⟨fun r rs hr h => transmitEnd_next live sending straps full (hptFreed_takes_reply hr h),
        fun n ns hn h => transmitEnd_next live sending straps full (hptFreed_takes_notice hn h),
        fun hr hn => transmitEnd_next live sending straps full (hptFreed_stays_free hr hn)⟩,
      fun code payload => ?notices⟩⟩
  case idle => rw [Hpt.txd, free]
  case sends => rw [Hpt.txd, sending]
  case notices =>
    have busy : s.hpt.sending ≠ none := by rw [sending]; exact Option.some_ne_none f
    obtain ⟨front, back, queue, few, passed, joined⟩ := join_passing (n := ⟨code, payload⟩)
      (atMost_le (s.hpt.passable s.raised ⟨code, payload⟩) (Config.noticePlace s.fresh))
    refine ⟨front, back, queue, few, fun m hm => (mayPass_iff ⟨code, payload⟩ m).1 (passed m hm), ?_⟩
    intro all joinedHpt left free
    have same : s.joined ⟨code, payload⟩ = joinedHpt := joined
    rw [← same]
    exact ⟨notify_sending code payload busy, notify_cut_sending code payload busy, notify_cut_free code payload,
      fun replies n ns head => notify_free code payload replies head,
      fun replies => notify_free_reply code payload replies⟩

end Sys2Proof.Machine
end

section
/-! SUPPORT. The store's requests, the engine's choice, and the start of each kind of operation (R150, R152, R153, R156, R157,
R160, R162, R164, R166, R169). -/

namespace Sys2Proof.Machine

/-! ## The engine's choice (R150, R168) -/

section
variable {s : State} {op : StoreOp}

/-- Only a LOAD is eligible, and only one whose slot is not BUSY (R150). -/
theorem eligible_iff : s.eligible op = true ↔ ∃ i g, op.kind = .load i g ∧ (s.slot i).state ≠ .busy := by
  unfold State.eligible
  cases op.kind <;> simp

theorem nextLoad_first {front back : List StoreOp} (queue : s.psc.queue = front ++ op :: back)
    (eligible : s.eligible op = true) (first : ∀ x ∈ front, s.eligible x = false) : s.nextLoad = some op :=
  List.find?_eq_some_iff_append.2 ⟨eligible, front, back, queue, fun x hx => by rw [first x hx]; rfl⟩

theorem nextLoad_none (h : ∀ x ∈ s.psc.queue, s.eligible x = false) : s.nextLoad = none :=
  List.find?_eq_none.2 fun x hx => by rw [h x hx]; exact Bool.false_ne_true

theorem nextOp_load (h : s.nextLoad = some op) : s.nextOp = some op := by rw [State.nextOp, h]

/-- With no LOAD to take, the oldest operation is chosen (R150). -/
theorem nextOp_head {back : List StoreOp} (queue : s.psc.queue = op :: back) (h : s.nextLoad = none) :
    s.nextOp = some op := by
  rw [State.nextOp, h, queue]
  rfl

theorem chooseFrom_next (idle : s.psc.engine = .idle) (next : s.nextOp = some op) (k : Nat) :
    State.chooseFrom (k + 1) s = State.chooseFrom k ((s.dequeue op).startOp op) := by
  rw [State.chooseFrom, idle, next]

theorem choose_next (idle : s.psc.engine = .idle) (next : s.nextOp = some op) (queued : s.psc.queue.length ≠ 0) :
    s.choose = State.chooseFrom (s.psc.queue.length - 1) ((s.dequeue op).startOp op) := by
  obtain ⟨k, hk⟩ := Nat.exists_eq_succ_of_ne_zero queued
  rw [State.choose, hk]
  exact chooseFrom_next idle next k

end

/-- A busy engine, or one without an operation queued, chooses nothing (R150). -/
theorem chooseFrom_rests {s : State} (h : s.psc.engine ≠ .idle ∨ s.psc.queue = []) (k : Nat) : s.chooseFrom k = s := by
  cases k with
  | zero => rfl
  | succ k =>
    unfold State.chooseFrom
    split
    case h_1 op idle next =>
      have empty := h.resolve_left (not_not.2 idle)
      simp [State.nextOp, State.nextLoad, empty] at next
    case h_2 => rfl

/-! ## The starts (R153, R157, R160, R162, R164) -/

/-- The operation works on slot `i` of the array. -/
theorem unit_of_slotWorked {op : StoreOp} {i : Fin 32} (h : op.slotWorked = some i) : op.unit = i.val := by
  unfold StoreOp.slotWorked at h
  unfold StoreOp.unit
  split at h <;> simp_all

theorem setOpSlot_of_slotWorked {op : StoreOp} {i : Fin 32} (h : op.slotWorked = some i) (s : State) (x : SlotState) :
    s.setOpSlot op x = s.setSlotState i x := by
  unfold StoreOp.slotWorked at h
  unfold State.setOpSlot
  split at h <;> simp_all

section
variable (s : State) (i : Fin 32)

theorem slotGuard_locked (h : (s.slot i).isLocked = true) : s.slotGuard i = some .slotLocked := if_pos h

theorem slotGuard_protected (h : (s.slot i).isLocked = false) (hp : (s.slot i).isProtected = true) :
    s.slotGuard i = some .slotProtected := by
  simp only [State.slotGuard, h, hp, Bool.false_eq_true, if_false, if_true]

theorem slotGuard_open (h : (s.slot i).isLocked = false) (hp : (s.slot i).isProtected = false) :
    s.slotGuard i = none := by
  simp only [State.slotGuard, h, hp, Bool.false_eq_true, if_false]

end

/-- Array work on a slot starts: the marker clear, the entry BUSY, the engine ERASING (R153, R160). -/
theorem startErase_slot {w : Work} {i : Fin 32} (worked : w.op.slotWorked = some i) (s : State) :
    s.startErase w = { s with
      nv := { s.nv with mem := Memory.clearMarker s.nv.mem i.val }
      psc := { s.psc with dir := s.psc.dir.set i { s.slot i with state := .busy }, engine := .erasing w } } := by
  rw [State.startErase, setOpSlot_of_slotWorked worked, unit_of_slotWorked worked]
  rfl

section
variable {s : State} {op : StoreOp}

theorem startOp_load {i : Fin 32} {g : Fin 8} (kind : op.kind = .load i g) : s.startOp op = s.setEngine (.reading op) := by
  rw [State.startOp, kind]

theorem startOp_lock {i : Fin 32} (kind : op.kind = .lock i) :
    s.startOp op = if s.psc.frozen then s.replyTo op .frozen else s.setEngine (.fusing op i) := by
  rw [State.startOp, kind]

theorem startOp_setupSave (kind : op.kind = .setupSave) : s.startOp op = s.startErase ⟨op, setupImage s, none⟩ := by
  rw [State.startOp, kind]

theorem startOp_erase_refused {i : Fin 32} (kind : op.kind = .erase i) {st : Status} (h : s.slotGuard i = some st) :
    s.startOp op = s.replyTo op st := by
  simp only [State.startOp, kind, h]

theorem startOp_erase {i : Fin 32} (kind : op.kind = .erase i) (h : s.slotGuard i = none) :
    s.startOp op = s.startErase ⟨op, [], none⟩ := by
  simp only [State.startOp, kind, h]

theorem startOp_save_refused {g : Fin 8} {i : Fin 32} {label : Label} (kind : op.kind = .save g i label) {st : Status}
    (h : s.slotGuard i = some st) : s.startOp op = (s.unpin g).replyTo op st := by
  simp only [State.startOp, kind, h]

theorem startOp_save {g : Fin 8} {i : Fin 32} {label : Label} (kind : op.kind = .save g i label)
    (h : s.slotGuard i = none) : s.startOp op = (s.unpin g).startErase (s.capture op g label) := by
  simp only [State.startOp, kind, h]

end

/-- Settles O49: the choice by what is queued, each start by its kind and its checks. -/
theorem storeOperationsStart : Obligations.StoreOperationsStart := by
  intro s op
  refine ⟨fun front back queue eligible first => nextOp_load (nextLoad_first queue eligible first),
    fun back queue noLoad => nextOp_head queue (nextLoad_none noLoad), eligible_iff,
    fun front back queue eligible first => nextLoad_first queue eligible first, nextLoad_none,
    fun k h => chooseFrom_rests h k, fun k idle next => chooseFrom_next idle next k, rfl, rfl, fun rs label => rfl,
    choose_next, fun i g kind => startOp_load kind, fun i kind => ⟨fun frozen => ?_, fun frozen => ?_⟩,
    fun i kind => ⟨fun locked => startOp_erase_refused kind (slotGuard_locked s i locked),
      fun unlocked guarded => startOp_erase_refused kind (slotGuard_protected s i unlocked guarded),
      fun unlocked free => ?erase⟩,
    fun g i label kind => ⟨fun locked => startOp_save_refused kind (slotGuard_locked s i locked),
      fun unlocked guarded => startOp_save_refused kind (slotGuard_protected s i unlocked guarded),
      fun unlocked free => ?save⟩,
    fun kind => ?setup⟩
  · exact (startOp_lock kind).trans (if_pos frozen)
  · exact (startOp_lock kind).trans (if_neg (by rw [frozen]; exact Bool.false_ne_true))
  case erase =>
    rw [startOp_erase kind (slotGuard_open s i unlocked free)]
    exact startErase_slot (w := ⟨op, [], none⟩) (by rw [StoreOp.slotWorked, kind]) s
  case save =>
    rw [startOp_save kind (slotGuard_open s i unlocked free)]
    exact startErase_slot (w := s.capture op g label) (by rw [State.capture, StoreOp.slotWorked, kind]) (s.unpin g)
  case setup =>
    have unit : op.unit = 32 := by rw [StoreOp.unit, kind]
    have noSlot (t : State) : t.setOpSlot op .busy = t := by rw [State.setOpSlot, kind]
    rw [startOp_setupSave kind, State.startErase, unit, noSlot]
    rfl

/-! ## The acceptance (R150, R152, R156, R160, R162, R164, R166) -/

section
variable {s : State}

theorem judge_other (h : ∀ w, s.psc.engine ≠ .erasing w) : s.judge = s := by
  unfold State.judge
  split
  · exact absurd ‹_› (h _)
  · rfl

/-- During an erase, a LOAD to take and no guard start the suspend latency (R166). -/
theorem judge_suspends {w : Work} (erasing : s.psc.engine = .erasing w) (load : s.nextLoad ≠ none)
    (guard : s.psc.guard = false) : s.judge = { s with psc := { s.psc with suspending := true } } := by
  have wants : s.wantsSuspend = true := by
    rw [State.wantsSuspend, guard, Option.isSome_iff_ne_none.2 load]
    rfl
  rw [judge_erasing erasing, if_pos wants]

theorem judge_stays {w : Work} (erasing : s.psc.engine = .erasing w) (h : s.nextLoad = none ∨ s.psc.guard = true) :
    s.judge = s := by
  rw [judge_erasing erasing, if_neg]
  rcases h with h | h <;> simp [State.wantsSuspend, h]

end

/-- A group can be saved in READY, ARMED and LAUNCHING (R152). -/
theorem savable_iff (x : GroupState) : x.savable = true ↔ x = .ready ∨ x = .armed ∨ x = .launching := by
  cases x <;> simp [GroupState.savable]

section
variable (s : State) (tag : Byte) (i : Fin 32)

/-! ### SLOT.SAVE: the checks of the slot, then those of the group (R152) -/

section
variable (g : Fin 8) (label : Label)

theorem ownSlotSave_guarded {st : Status} (h : s.slotGuard i = some st) :
    ownSlotSave tag (natByte g.val) (natByte i.val) label s = s.answer tag st := by
  simp only [ownSlotSave, inRange_natByte_32, inRange_natByte_8, h]

variable (free : s.slotGuard i = none)
include free

theorem ownSlotSave_wrongState (h : (s.group g).state.savable = false) :
    ownSlotSave tag (natByte g.val) (natByte i.val) label s = s.answer tag .wrongState := by
  simp only [ownSlotSave, inRange_natByte_32, inRange_natByte_8, free, h, Bool.not_false, if_true]

theorem ownSlotSave_tooLarge (h : (s.group g).state.savable = true) (size : 4064 < payloadLength (s.group g).records) :
    ownSlotSave tag (natByte g.val) (natByte i.val) label s = s.answer tag .tooLarge := by
  simp only [ownSlotSave, inRange_natByte_32, inRange_natByte_8, free, h, size, Bool.not_true, Bool.false_eq_true,
    if_false, if_true]

theorem ownSlotSave_taken (h : (s.group g).state.savable = true) (size : payloadLength (s.group g).records ≤ 4064) :
    ownSlotSave tag (natByte g.val) (natByte i.val) label s =
      (s.setGroup g { s.group g with pins := (s.group g).pins + 1 }).accept (.save g i label) (some tag) := by
  simp only [ownSlotSave, inRange_natByte_32, inRange_natByte_8, free, h, Nat.not_lt.2 size, Bool.not_true,
    Bool.false_eq_true, if_false]

end

/-! ### SLOT.LOAD, SLOT.ERASE, SLOT.LOCK (R156, R160, R164) -/

theorem ownSlotLoad_eq (g : Fin 8) :
    ownSlotLoad tag (natByte i.val) (natByte g.val) s =
      if (s.group g).state = .empty then
        (s.setGroup g { s.group g with state := .loading }).accept (.load i g) (some tag)
      else s.answer tag .wrongState := by
  simp only [ownSlotLoad, inRange_natByte_32, inRange_natByte_8, State.reserve, ne_eq, ite_not]
  split_ifs <;> rfl

theorem ownSlotErase_guarded {st : Status} (h : s.slotGuard i = some st) :
    ownSlotErase tag (natByte i.val) s = s.answer tag st := by
  simp only [ownSlotErase, inRange_natByte_32, h]

theorem ownSlotErase_taken (free : s.slotGuard i = none) :
    ownSlotErase tag (natByte i.val) s = s.accept (.erase i) (some tag) := by
  simp only [ownSlotErase, inRange_natByte_32, free]

theorem ownSlotLock_eq :
    ownSlotLock tag (natByte i.val) s =
      if s.psc.frozen then s.answer tag .frozen else s.accept (.lock i) (some tag) := by
  simp only [ownSlotLock, inRange_natByte_32]

end

/-- Settles O48: each request by its checks in order, then the acceptance by what the engine does. -/
theorem storeRequestsAccepted : Obligations.StoreRequestsAccepted := by
  constructor
  · intro s h ha
    have taken {code : Byte} {own : State → State} {t : State} (ho : own (s.accepted h code) = t) :
        s.taking (fun s => s.request h code none own) = .next t.arbitrated := by
      rw [taking_request ha, ho]
    refine ⟨fun i g label => ?save, fun i g => ⟨fun used => ?_, fun empty => ?_⟩, fun i =>
      ⟨fun locked => taking_answered ha (ownSlotErase_guarded _ _ i (slotGuard_locked s i locked)),
        fun unlocked guarded => taking_answered ha (ownSlotErase_guarded _ _ i (slotGuard_protected s i unlocked guarded)),
        fun unlocked free => taken (ownSlotErase_taken _ _ i (slotGuard_open s i unlocked free)),
        fun frozen => ?_, fun frozen => ?_⟩, taken rfl⟩
    case save =>
      refine ⟨fun locked => taking_answered ha (ownSlotSave_guarded _ _ i g label (slotGuard_locked s i locked)),
        fun unlocked guarded =>
          taking_answered ha (ownSlotSave_guarded _ _ i g label (slotGuard_protected s i unlocked guarded)),
        fun unlocked guarded => ?_⟩
      have free : s.slotGuard i = none := slotGuard_open s i unlocked guarded
      refine ⟨fun ready armed launching => ?_, fun state => ?_⟩
      · have unsavable : (s.group g).state.savable = false :=
          Bool.eq_false_iff.2 fun h => by rcases (savable_iff _).1 h with h | h | h <;> contradiction
        exact taking_answered ha (ownSlotSave_wrongState (s.accepted h 0x50#8) _ i g label free unsavable)
      · have savable := (savable_iff _).2 state
        exact ⟨fun size => taking_answered ha (ownSlotSave_tooLarge (s.accepted h 0x50#8) _ i g label free savable size),
          fun size => taken (ownSlotSave_taken (s.accepted h 0x50#8) _ i g label free savable size)⟩
    · exact taking_answered ha ((ownSlotLoad_eq ..).trans (if_neg used))
    · exact taken ((ownSlotLoad_eq ..).trans (if_pos empty))
    · exact taking_answered ha ((ownSlotLock_eq ..).trans (if_pos frozen))
    · exact taken ((ownSlotLock_eq ..).trans (if_neg (by rw [State.accepted_psc, frozen]; exact Bool.false_ne_true)))
  · intro s kind origin t judged
    have accepted : s.accept kind origin = t.choose.judge := rfl
    have busy (h : s.psc.engine ≠ .idle) : s.accept kind origin = t.judge := by rw [accepted, choose_busy (s := t) h]
    refine ⟨fun _ => ⟨fun other => accepted.trans (judge_other other), fun w erasing =>
        ⟨fun load guard => accepted.trans (judge_suspends erasing load guard),
          fun rests => accepted.trans (judge_stays erasing rests)⟩⟩,
      fun working other => (busy working).trans (judge_other other), fun w erasing => ?_⟩
    have working : s.psc.engine ≠ .idle := by rw [erasing]; exact Engine.noConfusion
    exact ⟨fun load guard => (busy working).trans (judge_suspends erasing load guard),
      fun rests => (busy working).trans (judge_stays erasing rests)⟩

end Sys2Proof.Machine
end

section
/-! SUPPORT. The records of a slot image, read from its bytes, and the end of a load (R157 to R159, R202; table 10.4). -/

namespace Sys2Proof.Machine

/-! ## The items of a record fill its bytes (table 10.4) -/

theorem drop_eq_byteAt_cons {l : List Byte} {o : Nat} (h : o < l.length) : l.drop o = byteAt l o :: l.drop (o + 1) := by
  rw [byteAt_eq_getElem h, List.drop_eq_getElem_cons h]

/-- The two bytes of an item are those at its offset, least significant first (R200). -/
theorem halfBytes_halfAt (l : List Byte) (o : Nat) : halfBytes (halfAt l o) = [byteAt l o, byteAt l (o + 1)] := by
  simp only [halfBytes, halfAt, List.cons.injEq, and_true]
  constructor
  · ext i hi
    simp
  · ext i hi
    simp [hi, show 8 + i < 16 by omega]

theorem length_valuesAt (l : List Byte) (o n : Nat) : (valuesAt l o n).length = n := by
  induction n generalizing o with
  | zero => rfl
  | succ n ih => rw [valuesAt, List.length_cons, ih]

/-- Values read are the bytes they were read from. -/
theorem flatMap_valuesAt {l : List Byte} {o n : Nat} (h : o + 4 * n ≤ l.length) :
    (valuesAt l o n).flatMap valBytes = (l.drop o).take (4 * n) := by
  induction n generalizing o with
  | zero => rfl
  | succ n ih =>
    have four : l.drop o = valBytes (valAt l o) ++ l.drop (o + 4) := by
      rw [valBytes_valAt, drop_eq_byteAt_cons (l := l) (o := o) (by omega), drop_eq_byteAt_cons (o := o + 1) (by omega),
        drop_eq_byteAt_cons (o := o + 1 + 1) (by omega), drop_eq_byteAt_cons (o := o + 1 + 1 + 1) (by omega)]
      rfl
    rw [valuesAt, List.flatMap_cons, ih (by omega), four, show 4 * (n + 1) = (valBytes (valAt l o)).length + 4 * n by
      rw [length_valBytes]; omega, List.take_length_add_append]

/-- A record's items, as many values as its count byte says, spell the bytes they were read from. -/
theorem recordWire_rawRecordAt {l : List Byte} {n : Nat} (count : (byteAt l 5).toNat = n) (fits : 8 + 4 * n ≤ l.length) :
    recordWire (rawRecordAt l 0 n) = l.take (8 + 4 * n) := by
  have countByte : natByte n = byteAt l 5 := by rw [natByte, ← count, BitVec.ofNat_toNat, BitVec.setWidth_eq]
  have fixed : l = [byteAt l 0, byteAt l 1, byteAt l 2, byteAt l 3, byteAt l 4, byteAt l 5, byteAt l 6, byteAt l 7] ++
      l.drop 8 := by
    conv_lhs => rw [← List.drop_zero (l := l)]
    iterate 8 rw [drop_eq_byteAt_cons (l := l) (by omega)]
    rfl
  have values : (valuesAt l 8 n).flatMap valBytes = (l.drop 8).take (4 * n) := flatMap_valuesAt fits
  have spelled : recordWire (rawRecordAt l 0 n) =
      [byteAt l 0, byteAt l 1, byteAt l 2, byteAt l 3, byteAt l 4, byteAt l 5, byteAt l 6, byteAt l 7] ++
        (l.drop 8).take (4 * n) := by
    simp only [recordWire, rawRecordAt, halfBytes_halfAt, length_valuesAt, countByte, values, Nat.zero_add]
    rfl
  rw [spelled]
  conv_rhs => rw [fixed]
  exact (List.take_length_add_append _).symm

/-! ## A payload is records end to end (R158, R202) -/

theorem parseRecords_nil (k : Nat) : parseRecords k [] = some [] := by cases k <;> rfl

/-- What a payload that passes the record checks begins with: a record that passes, as many values as its count byte says,
and a payload that passes. -/
theorem parseRecords_succ {k : Nat} {b : Byte} {l : List Byte} {rs : List Record}
    (parsed : parseRecords (k + 1) (b :: l) = some rs) :
    ∃ n r rest, (byteAt (b :: l) 5).toNat = n ∧ 8 + 4 * n ≤ (b :: l).length ∧
      recordOf (rawRecordAt (b :: l) 0 n) = some r ∧ parseRecords k ((b :: l).drop (8 + 4 * n)) = some rest ∧
      rs = r :: rest := by
  unfold parseRecords at parsed
  simp only at parsed
  split at parsed
  · cases parsed
  · rename_i fits
    split at parsed
    · cases parsed
    · rename_i r record
      obtain ⟨rest, restParsed, rfl⟩ := Option.map_eq_some_iff.1 parsed
      exact ⟨_, r, rest, rfl, Nat.not_lt.1 fits, record, restParsed, rfl⟩

/-- A record on the wire whose items pass is read, and what follows it is left; unused items do not matter (R202). -/
theorem parseRecords_wire {raw : RawRecord} {r : Record} (count : raw.values.length < 256) (record : recordOf raw = some r)
    (k : Nat) (rest : List Byte) :
    parseRecords (k + 1) (recordWire raw ++ rest) = (parseRecords k rest).map (r :: ·) := by
  have length := length_recordWire raw
  have counted := countByte_recordWire raw count rest
  have read := rawRecordAt_recordWire raw rest
  have left : (recordWire raw ++ rest).drop (8 + 4 * raw.values.length) = rest := by rw [← length, List.drop_left]
  have fits : ¬ (recordWire raw ++ rest).length < 8 + 4 * raw.values.length := by rw [List.length_append]; omega
  generalize recordWire raw ++ rest = bytes at counted read left fits
  cases bytes with
  | nil => simp at fits
  | cons b l => simp only [parseRecords, counted, if_neg fits, read, record, left]

/-- The items of records that pass their checks, each with a count that its byte can say. -/
def spells (raws : List RawRecord) (rs : List Record) : Prop :=
  (∀ r ∈ raws, r.values.length < 256) ∧ raws.map recordOf = rs.map some

theorem parseRecords_spelled {raws : List RawRecord} {rs : List Record} (h : spells raws rs) {k : Nat}
    (hk : rs.length ≤ k) : parseRecords k (raws.flatMap recordWire) = some rs := by
  obtain ⟨counts, records⟩ := h
  induction rs generalizing raws k with
  | nil =>
    obtain rfl : raws = [] := List.map_eq_nil_iff.1 records
    exact parseRecords_nil k
  | cons r rs ih =>
    obtain ⟨raw, raws, rfl, record, rest⟩ := List.map_eq_cons_iff.1 records
    obtain ⟨count, counts⟩ := List.forall_mem_cons.1 counts
    obtain ⟨k, rfl⟩ := Nat.exists_eq_add_of_lt (Nat.lt_of_lt_of_le (Nat.zero_lt_succ _) hk)
    rw [Nat.zero_add] at hk ⊢
    rw [List.flatMap_cons, parseRecords_wire count record, ih (Nat.le_of_succ_le_succ hk) counts rest]
    rfl

theorem parseRecords_spells {k : Nat} {bytes : List Byte} {rs : List Record} (parsed : parseRecords k bytes = some rs) :
    ∃ raws, spells raws rs ∧ bytes = raws.flatMap recordWire := by
  induction k generalizing bytes rs with
  | zero =>
    cases bytes with
    | nil => cases parsed; exact ⟨[], ⟨by simp, rfl⟩, rfl⟩
    | cons b l => cases parsed
  | succ k ih =>
    cases bytes with
    | nil => cases parsed; exact ⟨[], ⟨by simp, rfl⟩, rfl⟩
    | cons b l =>
      obtain ⟨n, r, rest, count, fits, record, restParsed, rfl⟩ := parseRecords_succ parsed
      obtain ⟨raws, ⟨counts, records⟩, left⟩ := ih restParsed
      have values : (rawRecordAt (b :: l) 0 n).values.length < 256 := by
        rw [rawRecordAt, length_valuesAt, ← count]
        exact (byteAt (b :: l) 5).isLt
      refine ⟨rawRecordAt (b :: l) 0 n :: raws, ⟨List.forall_mem_cons.2 ⟨values, counts⟩, ?_⟩, ?_⟩
      · rw [List.map_cons, record, records, List.map_cons]
      · rw [List.flatMap_cons, recordWire_rawRecordAt count fits, ← left, List.take_append_drop]

/-- A record takes 8 bytes at least. -/
theorem length_le_wire (raws : List RawRecord) : raws.length ≤ (raws.flatMap recordWire).length := by
  induction raws with
  | nil => exact le_rfl
  | cons r l ih =>
    have := length_recordWire r
    simp only [List.flatMap_cons, List.length_append, List.length_cons]
    omega

/-- The records of an image: those its payload spells, as many as its header counts, 1 to 256 (R158). -/
theorem imageRecords_iff (m : List Host.Cell) (i : Fin 32) (info : SlotInfo) (rs : List Record) :
    imageRecords m i info = some rs ↔
      rs.length = info.count.toNat ∧ 1 ≤ rs.length ∧ rs.length ≤ 256 ∧
        ∃ raws, spells raws rs ∧ payloadOf m i.val info.length.toNat = raws.flatMap recordWire := by
  have counted :
      imageRecords m i info = some rs ↔ parseRecords info.length.toNat (payloadOf m i.val info.length.toNat) = some rs ∧
        rs.length = info.count.toNat ∧ 1 ≤ rs.length ∧ rs.length ≤ 256 := by
    unfold imageRecords
    cases parseRecords info.length.toNat (payloadOf m i.val info.length.toNat) with
    | none => simp
    | some l =>
      simp only [Option.ite_none_right_eq_some, Option.some.injEq]
      constructor
      · rintro ⟨checks, rfl⟩
        exact ⟨rfl, checks⟩
      · rintro ⟨rfl, checks⟩
        exact ⟨checks, rfl⟩
  rw [counted]
  constructor
  · rintro ⟨parsed, count, low, high⟩
    exact ⟨count, low, high, parseRecords_spells parsed⟩
  · rintro ⟨count, low, high, raws, spelled, bytes⟩
    have same : raws.length = rs.length := by simpa using congrArg List.length spelled.2
    have enough : rs.length ≤ info.length.toNat := by
      rw [← same, ← Memory.length_readAll m (unitBase i.val + Config.headerBytes) info.length.toNat]
      exact (length_le_wire raws).trans (congrArg List.length bytes).ge
    exact ⟨bytes ▸ parseRecords_spelled spelled enough, count, low, high⟩

/-! ## The ranges of each form (R6 to R12, R158, R202) -/

section
variable (word attempts : Half) (small : Byte) (vs : List Val)

theorem recordOf_single_eq (t : Fin 16) :
    recordOf ⟨1#8, natByte t.val, word, small, attempts, vs⟩ =
      if vs.length = 1 then some (.single t word (vs.headD 0#32)) else none := by
  by_cases one : vs.length = 1
  · obtain ⟨v, rfl⟩ := List.length_eq_one_iff.1 one
    rw [recordOf_single, inRange_natByte_16]
    rfl
  · rw [recordOf_single_count _ _ _ _ _ one, if_neg one]

theorem recordOf_run_eq (t : Fin 16) :
    recordOf ⟨2#8, natByte t.val, word, small, attempts, vs⟩ =
      if 2 ≤ vs.length ∧ vs.length ≤ 32 then some (.run t word vs) else none := by
  rw [recordOf_run, inRange_natByte_16, Option.map_some]

theorem recordOf_scatter_eq (t : Fin 16) {st : Stride} (count : 1 ≤ vs.length ∧ vs.length ≤ 32)
    (stride : strideOf small = some st) :
    recordOf ⟨3#8, natByte t.val, word, small, attempts, vs⟩ = some (.scatter t word st vs) := by
  rw [recordOf_scatter, if_pos count, inRange_natByte_16, Option.bind_some, stride, Option.map_some]

theorem recordOf_scatter_none (t : Fin 16)
    (h : ¬ (1 ≤ vs.length ∧ vs.length ≤ 32) ∨ (small ≠ 1#8 ∧ small ≠ 0#8 ∧ small ≠ 0xFF#8)) :
    recordOf ⟨3#8, natByte t.val, word, small, attempts, vs⟩ = none := by
  rw [recordOf_scatter, inRange_natByte_16, Option.bind_some]
  rcases h with count | ⟨up, stay, down⟩
  · exact if_neg count
  · rw [strideOf, if_neg up, if_neg stay, if_neg down, Option.map_none, ite_self]

theorem recordOf_poll_eq (t : Fin 16) :
    recordOf ⟨4#8, natByte t.val, word, small, attempts, vs⟩ =
      if vs.length = 2 ∧ 1 ≤ attempts.toNat ∧ attempts.toNat ≤ 1024 ∧ 1 ≤ small.toNat ∧
          vs.getD 1 0#32 &&& ~~~(vs.getD 0 0#32) = 0#32 then
        some (.poll t word (vs.getD 0 0#32) (vs.getD 1 0#32) attempts small) else none := by
  have gap : 1 ≤ small.toNat ↔ small ≠ 0#8 := by bv_omega
  by_cases two : vs.length = 2
  · obtain ⟨mask, expect, rfl⟩ := List.length_eq_two.1 two
    rw [recordOf_poll, inRange_natByte_16, Option.map_some]
    exact if_congr (by simp [gap]) rfl rfl
  · rw [recordOf_poll_count _ _ _ _ _ two, if_neg fun h => two h.1]

theorem recordOf_wait_eq (l : Fin 4) :
    recordOf ⟨5#8, natByte l.val, word, small, attempts, vs⟩ =
      if vs = [] ∧ 1 ≤ word.toNat then some (.wait l word) else none := by
  have duration : 1 ≤ word.toNat ↔ word ≠ 0#16 := by bv_omega
  by_cases empty : vs = []
  · subst empty
    rw [recordOf_wait, inRange_natByte_4, Option.map_some]
    exact if_congr (by simp [duration]) rfl rfl
  · rw [recordOf_wait_count _ _ _ _ _ empty, if_neg fun h => empty h.1]

theorem recordOf_setpoint_eq (n : Fin 4) :
    recordOf ⟨6#8, natByte n.val, word, small, attempts, vs⟩ =
      if vs.length = 1 then some (.setpoint n (vs.headD 0#32)) else none := by
  by_cases one : vs.length = 1
  · obtain ⟨v, rfl⟩ := List.length_eq_one_iff.1 one
    rw [recordOf_setpoint, inRange_natByte_4]
    rfl
  · rw [recordOf_setpoint_count _ _ _ _ _ one, if_neg one]

end

/-! ## What the array holds for a load (R157 to R159) -/

section
variable {s : State} {i : Fin 32}

theorem loadResult_blank (h : classifySlot s.nv.mem i = .blank) : s.loadResult i = .blank := by
  simp only [State.loadResult, h]

theorem loadResult_invalid (h : classifySlot s.nv.mem i = .invalid) : s.loadResult i = .invalid := by
  simp only [State.loadResult, h]

variable {info : SlotInfo} (valid : classifySlot s.nv.mem i = .valid info)
include valid

theorem loadResult_unread (h : imageRecords s.nv.mem i info = none) : s.loadResult i = .invalid := by
  simp only [State.loadResult, valid, h]

theorem loadResult_read {rs : List Record} (h : imageRecords s.nv.mem i info = some rs) :
    s.loadResult i = if rs.length ≤ s.gtb.free then .filled info rs else .poolFull info := by
  simp only [State.loadResult, valid, h]

end

/-! ## The end of a load (R157 to R159) -/

/-- The group of a load that fills nothing: EMPTY again, its launch fields cleared (R25). -/
def State.groupEmptied (s : State) (g : Fin 8) : State := s.setGroup g { (s.group g).cleared with state := .empty }

section
variable {s : State} {g : Fin 8} (loading : (s.group g).state = .loading) (records : (s.group g).records = [])
include loading records

theorem release_loading : s.release g = s.groupEmptied g := by
  rw [State.release, if_pos loading, emptyGroup_eq, records]
  simp only [State.groupEmptied, State.setGroup, GroupEntry.cleared, records, List.length_nil, Nat.add_zero]

theorem loadGroup_filled (info : SlotInfo) (rs : List Record) :
    s.loadGroup g (.filled info rs) = { s with gtb :=
      { groups := s.gtb.groups.set g { s.group g with state := .ready, records := rs }
        free := s.gtb.free - rs.length } } := by
  have freed : s.gtb.free + (s.group g).records.length - rs.length = s.gtb.free - rs.length := by
    rw [records, List.length_nil, Nat.add_zero]
  have entry : (s.setRecords g rs).group g = { s.group g with records := rs } := by
    rw [group_setRecords, State.group_setGroup_self]
  have taken : s.loadGroup g (.filled info rs) =
      (s.setRecords g rs).setGroup g { (s.setRecords g rs).group g with state := .ready } := if_pos loading
  rw [taken, entry]
  simp only [State.setRecords, State.setGroup, freed, Vector.set_set]

end

section
variable {s : State} {op : StoreOp} {i : Fin 32} {g : Fin 8}

/-- A load that the start has not made itself ends with its effects alone (R157). -/
theorem loadOver_requested (kind : op.kind = .load i g) (h : op.origin ≠ none ∨ s.suc.stage ≠ .load) :
    s.loadOver op = s.loadEnd op i g := by
  have notStart : ¬ (op.origin = none ∧ s.suc.stage = .load) := fun both => h.elim (· both.1) (· both.2)
  simp only [State.loadOver, kind, notStart, if_false]

/-- The image read's end is the load's end, then the engine's next choice (R157, R168). -/
theorem exec_imageReadComplete (live : s.live = true) (kind : op.kind = .load i g)
    (h : op.origin ≠ none ∨ s.suc.stage ≠ .load) :
    (s.psc.engine = .reading op → exec .imageReadComplete s = .next ((s.loadEnd op i g).engineFree).arbitrated) ∧
      ∀ x, s.psc.engine = .readingUnderSuspend op x →
        exec .imageReadComplete s = .next ((s.loadEnd op i g).chooseUnder x).arbitrated := by
  rw [← loadOver_requested kind h]
  constructor
  · intro reading
    refine (taking_live live imageReadComplete).trans ?_
    rw [imageReadComplete, reading]
  · intro x reading
    refine (taking_live live imageReadComplete).trans ?_
    rw [imageReadComplete, reading]

theorem loadEnd_of_result {e : LoadEnd} (result : s.loadResult i = e) :
    s.loadEnd op i g = ((s.setSlotState i e.slotState).loadGroup g e).replyTo op e.status (e.result i) := by
  rw [State.loadEnd, result]

variable (loading : (s.group g).state = .loading) (records : (s.group g).records = [])
include loading records

/-- A load that fills nothing: the directory entry, the group EMPTY again, the reply without a result (R157, R159). -/
theorem loadEnd_unfilled {e : LoadEnd} (result : s.loadResult i = e) (unfilled : ∀ info rs, e ≠ .filled info rs) :
    s.loadEnd op i g = ((s.setSlotState i e.slotState).groupEmptied g).replyTo op e.status [] := by
  have released : (s.setSlotState i e.slotState).release g = (s.setSlotState i e.slotState).groupEmptied g :=
    release_loading loading records
  rw [loadEnd_of_result result, ← released]
  cases e with
  | filled info rs => exact absurd rfl (unfilled info rs)
  | blank => rfl
  | invalid => rfl
  | poolFull info => rfl

theorem loadEnd_filled {info : SlotInfo} {rs : List Record} (result : s.loadResult i = .filled info rs) :
    s.loadEnd op i g =
      State.replyTo
        { s.setSlotState i (.valid info) with gtb :=
          { groups := s.gtb.groups.set g { s.group g with state := .ready, records := rs }
            free := s.gtb.free - rs.length } }
        op .ok ([natByte i.val] ++ halfBytes info.count ++ info.label.toList) := by
  have filled := loadGroup_filled (s := s.setSlotState i (.valid info)) loading records info rs
  rw [loadEnd_of_result result]
  exact congrArg (fun t => State.replyTo t op .ok _) filled

end

/-- Settles O51: the records of a payload, the ranges by form, and the end by what the array holds. -/
theorem loadEnds : Obligations.LoadEnds := by
  refine ⟨fun m i info rs => ?image, fun word attempts small vs => ⟨fun t =>
      ⟨recordOf_single_eq .., recordOf_run_eq .., fun count => ⟨fun up => ?_, fun stay => ?_, fun down => ?_⟩,
        recordOf_scatter_none word attempts small vs t, recordOf_poll_eq ..⟩,
      fun k => ⟨recordOf_wait_eq .., recordOf_setpoint_eq ..⟩, fun form which h => recordOf_outOfRange _ _ _ _ _ h⟩,
    fun s op i g kind => ⟨fun live h => exec_imageReadComplete live kind h, fun loading records => ?ends⟩⟩
  case image =>
    simp only [imageRecords_iff, spells, and_assoc]
    rfl
  · exact recordOf_scatter_eq word attempts small vs t count (by rw [up]; rfl)
  · exact recordOf_scatter_eq word attempts small vs t count (by rw [stay]; rfl)
  · exact recordOf_scatter_eq word attempts small vs t count (by rw [down]; rfl)
  case ends =>
    have unfilled {e : LoadEnd} (result : s.loadResult i = e) := loadEnd_unfilled (op := op) loading records result
    refine ⟨fun blank => unfilled (loadResult_blank blank) nofun, fun invalid => unfilled (loadResult_invalid invalid) nofun,
      fun info valid => ⟨fun unread => unfilled (loadResult_unread valid unread) nofun, fun rs read =>
        ⟨fun full => unfilled ((loadResult_read valid read).trans (if_neg (Nat.not_le.2 full))) nofun,
          fun room => loadEnd_filled loading records ((loadResult_read valid read).trans (if_pos room))⟩⟩⟩

end Sys2Proof.Machine
end

section
/-! SUPPORT. Every command ends in a next state with the queue of commands as it was, and a part that is held takes no
event (R178). -/

namespace Sys2Proof.Machine

/-- No command stops the part. -/
theorem exec_next (c : Instr) (s : State) : ∃ t, exec c s = .next t := by
  cases c <;> exact ⟨_, rfl⟩

/-- The queue of commands stays outside the machine: no elementary update touches it (log entry 1). -/
theorem whole_pending (q : List Instr) : Whole fun s => s.pending = q where
  group _ _ _ _ h := h
  account _ _ _ h := h
  target _ _ _ h := h
  lane _ _ _ h := h
  loop _ _ _ h := h
  sync _ _ h := h
  notice _ _ _ _ h := h
  reply _ _ _ _ h := h
  draw _ h := h
  store _ _ h := h
  startup _ _ h := h
  array _ _ _ h := h
  own _ _ _ h := h
  records _ _ _ _ h := h
  config _ _ _ _ _ h := h
  clear _ h := h
  blocks _ _ _ h := h
  refuse _ _ _ _ _ h := h
  accept _ _ _ _ _ h := h
  replyFull _ _ _ _ h := h
  port _ _ _ _ h := h
  head _ h := h
  placed _ h := h
  arbiter _ h := h

theorem exec_pending {c : Instr} {s t : State} (h : exec c s = .next t) : t.pending = s.pending :=
  (whole_pending s.pending).exec rfl h

/-- A part that is held takes no event but the supply, RESETn and the pin levels (R178; log entry 4). -/
theorem exec_dead {s : State} (dead : s.live = false) {c : Instr} (event : takenWhenDead c = false) :
    exec c s = .next s := by
  cases c
  case powerOn | powerFail | resetnAssert | resetnRelease | syncLevelChange => cases event
  case windowExpiry l => exact taking_dead dead fun s => s.closeWindow l
  all_goals exact taking_dead dead _

/-- Settles O2: no command stops the part, and on a held part every command but those of the pins is dropped. -/
theorem everyCommandAnswersNext : Obligations.EveryCommandAnswersNext := by
  refine ⟨fun c s => ?_, fun s dead => ⟨fun c event => exec_dead dead event, fun l x => ?_⟩⟩
  · obtain ⟨t, next⟩ := exec_next c s
    exact ⟨t, next, exec_pending next⟩
  · exact taking_dead ((live_setPinLevel s l x).trans dead) (levelChanged l x)

end Sys2Proof.Machine
end

section
/-! SUPPORT. PART.IDENT, PART.STATUS, PART.RESET FULL, SETUP.START and SETUP.QUERY (R176, R177, R185, R187, R197,
R198). -/

namespace Sys2Proof.Machine

/-! ## Requests of both phases (R185) -/

/-- PART.IDENT or PART.STATUS, heard in either phase and answered without a change (R185). -/
theorem taking_heard {s : State} {h : ReqHead} (ha : s.hears h) {code : Byte} (both : code = 0x70#8 ∨ code = 0x71#8)
    {own : State → State} {st : Status} {r : List Byte}
    (answered : own (s.accepted h code) = (s.accepted h code).answer h.tag st r) :
    s.taking (fun s => s.request h code none own) = .next (s.replied h code st r) := by
  have ⟨live, place, _, _, unused, _⟩ := ha
  rw [taking_live live, request_accepted place (refusal_hears ha both), answered, answer_replied unused]

/-! ## The start report (R177, R204) -/

/-- The start result with its data, an absent one as zeros (R177, R200). -/
theorem resultBytes_eq (r : Option StartResult) :
    resultBytes r = match r with
      | none => List.replicate 15 0#8
      | some .none => List.replicate 15 0#8
      | some .slotBlank => 0x33#8 :: List.replicate 14 0#8
      | some .slotInvalid => 0x34#8 :: List.replicate 14 0#8
      | some (.armed d count label) =>
        [1#8, 1#8, natByte d.slot.val, lineByte d.line, d.skip] ++ halfBytes count ++ label.toList := by
  rcases r with _ | _ | ⟨d, count, label⟩ | _ | _ <;> rfl

/-- The items of the start report, one behind the other (R177). -/
theorem reportBytes_eq (r : StartReport) :
    reportBytes r = [r.cause.byte, r.setup.byte] ++
      r.autostart.toList.map (fun x => match x with
        | none => 0#8
        | some .notMarked => 0xF0#8
        | some .started => 0xF1#8
        | some (.refused st) => st.byte) ++ resultBytes r.result := by
  have results : r.autostart.toList = (upTo 4).map fun n => r.autostart[n] := by
    refine List.ext_getElem (by simp [upTo]) fun i h h' => ?_
    simp [upTo]
  rw [results, List.map_map, reportBytes]
  congr 2
  refine List.map_congr_left fun n _ => ?_
  simp only [Function.comp]
  rcases r.autostart[n] with _ | _ | _ | _ <;> rfl

/-! ## The designation (R176) -/

theorem designationOf_absent {r : RawDesignation} (absent : r.present = 0#8) : designationOf r = some none := by
  rw [designationOf, absent]
  rfl

theorem designationOf_spelt (i : Fin 32) (line : Line) (skip : Byte) :
    designationOf ⟨1#8, natByte i.val, lineByte line, skip⟩ = some (some ⟨i, line, skip⟩) := by
  simp [designationOf, flagOf]

/-- SETUP.START with its items in range changes the live designation only (R176). -/
theorem exec_setupStart {s : State} {h : ReqHead} (ha : s.admits h) {r : RawDesignation} {d : Option Designation}
    (taken : designationOf r = some d) :
    exec (.setupStart h r) s =
      .next (State.replied { s with suc := { s.suc with designation := d } } h 0x61#8 .ok []) := by
  refine request_replied ha 0x61#8 (fun t => { t with suc := { s.suc with designation := d } }) .ok [] ?_ rfl rfl
  rw [ownSetupStart, taken]
  rfl

/-- Settles O11: each request by what its owner answers, the report by its result. -/
theorem partAndSetupRequests : Obligations.PartAndSetupRequests := by
  refine ⟨fun s h ha => ⟨taking_heard ha (.inl rfl) rfl, ?status⟩, fun r => ?report, fun s h ha =>
    ⟨fun r absent => exec_setupStart ha (designationOf_absent absent),
      fun i line skip => exec_setupStart ha (designationOf_spelt i line skip), taking_answered ha rfl, ?full⟩⟩
  case status =>
    have counted : (s.accepted h 0x71#8).hpt.outstanding.length = s.hpt.outstanding.length + 1 := List.length_append ..
    refine (taking_heard ha (.inr rfl) (r := statusBytes (s.accepted h 0x71#8)) rfl).trans ?_
    rw [statusBytes, counted]
    rfl
  case report =>
    exact (reportBytes_eq r).trans (congrArg (_ ++ ·) (resultBytes_eq r.result))
  case full =>
    have ⟨_, _, _, _, unused, _⟩ := ha.1
    refine (taking_request ha 0x72#8 (ownPartResetFull h.tag)).trans ?_
    simp only [ownPartResetFull, State.accepted, answer_accepted unused]
    rfl

end Sys2Proof.Machine
end

section
/-! SUPPORT. The last steps of a start: the setup status, the autostarts, the internal load and N.START (R180 to R184,
R188). -/

namespace Sys2Proof.Machine

/-! ## The read of the setup area and the autostarts (R180 to R182) -/

section
variable {s : State}

/-- The steps that follow the setup status: autostart, then the start load (R182, R183). -/
def State.afterSetup (s : State) : State := (((upTo 4).foldl State.autostart s).startLoad).settleLanes

theorem exec_setupAreaRead_applied (live : s.live = true) (stage : s.suc.stage = .setupRead) {x : Setup}
    (read : readSetup s.nv.mem = (.applied, some x)) :
    exec .setupAreaRead s = .next (((s.setSetup .applied).applySetup x).afterSetup).arbitrated := by
  refine (taking_live live setupAreaRead).trans ?_
  simp only [setupAreaRead, if_pos stage, read]
  rfl

theorem exec_setupAreaRead_unapplied (live : s.live = true) (stage : s.suc.stage = .setupRead) {x : SetupStatus}
    (read : readSetup s.nv.mem = (x, none)) : exec .setupAreaRead s = .next ((s.setSetup x).afterSetup).arbitrated := by
  refine (taking_live live setupAreaRead).trans ?_
  simp only [setupAreaRead, if_pos stage, read]
  rfl

variable {n : Fin 4}

theorem autostart_unmarked (mark : (s.loop n).cfg.autostart = false) : s.autostart n = s.setAutostart n .notMarked := by
  simp [State.autostart, mark]

theorem autostart_started (mark : (s.loop n).cfg.autostart = true) (free : s.startRefusal n = none) :
    s.autostart n = (s.startLoop n).setAutostart n .started := by
  simp only [State.autostart, mark, if_true, free]

theorem autostart_refused (mark : (s.loop n).cfg.autostart = true) {st : Status}
    (refused : s.startRefusal n = some st) : s.autostart n = s.setAutostart n (.refused st) := by
  simp only [State.autostart, mark, if_true, refused]

end

/-! ## The start load (R183) -/

section
variable {s : State}

theorem startLoad_none (h : s.suc.setup ≠ .applied ∨ s.suc.designation = none) :
    s.startLoad = s.finishStart .none := by
  unfold State.startLoad
  split
  · next setup designated => exact absurd h (by simp [setup, designated])
  · rfl

theorem startLoad_designated {d : Designation} (setup : s.suc.setup = .applied)
    (designated : s.suc.designation = some d) (empty : (s.group 0).state = .empty) :
    s.startLoad =
      State.accept { s.setGroup 0 { s.group 0 with state := .loading } with suc := { s.suc with stage := .load } }
        (.load d.slot 0) none := by
  simp only [State.startLoad, setup, designated, State.reserve, if_pos empty]

/-- A last step left due is made on an empty queue (R184; log entry 36). -/
theorem step_due {r : StartResult} (live : s.live = true) (empty : s.pending = []) (due : s.suc.stage = .due r) :
    step s = .next (s.finishStart r).arbitrated := by
  simp [step, empty, State.idled, due, live]

end

/-! ## The end of the internal load (R157, R183, R184, R188) -/

/-- A load's group is filled or emptied: neither the start-up controller nor the sync and arm unit is touched. -/
theorem loadGroup_frame (s : State) (g : Fin 8) (e : LoadEnd) :
    (s.loadGroup g e).suc = s.suc ∧ (s.loadGroup g e).sau = s.sau := by
  unfold State.loadGroup State.release
  cases e <;> dsimp only <;> split_ifs <;> exact ⟨rfl, rfl⟩

theorem loadGroup_ready {s : State} {g : Fin 8} (loading : (s.group g).state = .loading) (info : SlotInfo)
    (rs : List Record) : ((s.loadGroup g (.filled info rs)).group g).state = .ready := by
  simp [State.loadGroup, loading]

/-- The last step, when the load's result has left it due, is the end of the start (R184). -/
theorem lastStep_lastStepDue (s : State) (r : StartResult) : (s.lastStepDue r).lastStep = s.finishStart r := rfl

section
variable {s : State} {op : StoreOp} {i : Fin 32}

/-- What an internal load's end comes to: the start's last step in the same step, or left due (R184; log entry 36). -/
def State.LoadStepEnds (s x : State) (r : StartResult) : Prop :=
  exec .imageReadComplete s = .next ((x.finishStart r).engineFree).arbitrated ∨
  exec .imageReadComplete s = .next ((x.lastStepDue r).engineFree).arbitrated

variable (internal : op.origin = none)
include internal

/-- An internal load has no reply (R171): its end touches neither the start-up controller nor the sync and arm unit. -/
theorem loadEnd_frame : (s.loadEnd op i 0).suc = s.suc ∧ (s.loadEnd op i 0).sau = s.sau := by
  rw [State.loadEnd, replyTo_internal internal]
  exact loadGroup_frame ..

theorem loadEnd_ready (loading : (s.group 0).state = .loading) {info : SlotInfo} {rs : List Record}
    (result : s.loadResult i = .filled info rs) : ((s.loadEnd op i 0).group 0).state = .ready := by
  rw [loadEnd_of_result result, replyTo_internal internal]
  exact loadGroup_ready (s := s.setSlotState i (.valid info)) loading info rs

/-- A filled group 0 is READY, so it is armed ONCE with the designation, at the tail of the arm list (R66, R183). -/
theorem startLoaded_filled {d : Designation} (designated : s.suc.designation = some d)
    (loading : (s.group 0).state = .loading) {info : SlotInfo} {rs : List Record}
    (result : s.loadResult i = .filled info rs) :
    (s.loadEnd op i 0).startLoaded (.filled info rs) =
      (((s.loadEnd op i 0).setGroup 0 { (s.loadEnd op i 0).group 0 with state := .armed }).setArm
        (s.sau.arm ++ [⟨0, d.line, d.skip, d.skip, .once⟩])).lastStepDue (.armed d info.count info.label) := by
  obtain ⟨suc, sau⟩ := loadEnd_frame (s := s) (i := i) internal
  have kept : (s.loadEnd op i 0).suc.designation = some d := by rw [suc, designated]
  have ready := loadEnd_ready internal loading result
  simp only [State.startLoaded, kept, State.armStart, if_pos ready, State.armGroup, sau]

variable (live : s.live = true) (stage : s.suc.stage = .load) (kind : op.kind = .load i 0)
  (reading : s.psc.engine = .reading op)
include live stage kind reading

theorem exec_startLoadEnd :
    exec .imageReadComplete s =
      .next (((s.loadEnd op i 0).startStep (s.loadResult i)).engineFree).arbitrated := by
  refine (taking_live live imageReadComplete).trans ?_
  simp only [imageReadComplete, reading, State.loadOver, kind, internal, stage, and_self, if_true]

/-- The load's result and what the start makes of it decide the step. -/
theorem loadStepEnds {e : LoadEnd} {x : State} {r : StartResult} (result : s.loadResult i = e)
    (loaded : (s.loadEnd op i 0).startLoaded e = x.lastStepDue r) : s.LoadStepEnds x r := by
  have step := exec_startLoadEnd internal live stage kind reading
  rw [result] at step
  rcases State.startStep_cases (s.loadEnd op i 0) e with apart | same
  · exact .inr (step.trans (by rw [apart, loaded]))
  · exact .inl (step.trans (by rw [same, loaded, lastStep_lastStepDue]))

end

/-- Settles O59: the steps of the start in their order, the internal load's end by its result. -/
theorem startSequenceEnds : Obligations.StartSequenceEnds := by
  intro s
  refine ⟨fun live stage =>
      ⟨fun x => exec_setupAreaRead_applied live stage, fun x => exec_setupAreaRead_unapplied live stage⟩,
    fun n => ⟨autostart_unmarked, fun mark => ⟨autostart_started mark, fun st => autostart_refused mark⟩⟩,
    startLoad_none, fun r => step_due, fun d => startLoad_designated,
    fun op i d live stage kind internal reading designated loading => ?_⟩
  have ends {e : LoadEnd} {x : State} {r : StartResult} :=
    loadStepEnds (e := e) (x := x) (r := r) internal live stage kind reading
  refine ⟨fun blank => ends (loadResult_blank blank) rfl, fun invalid => ends (loadResult_invalid invalid) rfl,
    fun info valid => ⟨fun unread => ends (loadResult_unread valid unread) rfl, fun rs read room => ?_⟩⟩
  have result := (loadResult_read valid read).trans (if_pos room)
  exact ends result (startLoaded_filled internal designated loading result)

end Sys2Proof.Machine
end

section
/-! SUPPORT. The code and length checks of a frame, and the order of its refusals (R191, R192, R201). -/

namespace Sys2Proof.Machine

/-! ## Codes and lengths (R201, 10.3.1) -/

/-- No code of the table of fixed lengths is one of a request with a list, or stands in it twice. -/
theorem fixedLengths_apart : ∀ x ∈ fixedLengths, x.1 ≠ 0x11#8 ∧ x.1 ≠ 0x14#8 ∧ x.1 ≠ 0x40#8 ∧
    fixedLengths.find? (·.1 == x.1) = some x := by decide

theorem codeCheck_fixed {x : Byte × Nat} (listed : x ∈ fixedLengths) (body : List Byte) :
    codeCheck x.1 body = if body.length = x.2 then none else some .badLength := by
  obtain ⟨notAdd, notEdit, notLoop, found⟩ := fixedLengths_apart x listed
  simp only [codeCheck, notAdd, notEdit, notLoop, if_false, found]

theorem codeCheck_unknown {code : Byte} (unlisted : code ∉ fixedLengths.map (·.1)) (notAdd : code ≠ 0x11#8)
    (notEdit : code ≠ 0x14#8) (notLoop : code ≠ 0x40#8) (body : List Byte) :
    codeCheck code body = some .unknownCode := by
  have missing : fixedLengths.find? (·.1 == code) = none := by
    refine List.find?_eq_none.2 fun x listed same => unlisted ?_
    exact List.mem_map.2 ⟨x, listed, eq_of_beq same⟩
  simp only [codeCheck, notAdd, notEdit, notLoop, if_false, missing]

/-- A request with a list is as long as its count says, and the count is within its bound. -/
theorem countedLength_eq (body : List Byte) (offset base each most : Nat) :
    countedLength body offset base each most =
      if offset < body.length ∧ (byteAt body offset).toNat ≤ most ∧
          body.length = base + each * (byteAt body offset).toNat then none else some .badLength := by
  rcases Nat.lt_or_ge offset body.length with inside | outside
  · have here : body[offset]? = some (byteAt body offset) := by
      simp [byteAt, List.getD_eq_getElem?_getD, inside]
    simp only [countedLength, here, inside, true_and]
  · rw [countedLength, List.getElem?_eq_none outside, if_neg fun h => Nat.not_lt.2 outside h.1]

theorem codeCheck_groupAdd (body : List Byte) : codeCheck 0x11#8 body = countedLength body 6 9 4 32 := rfl

theorem codeCheck_groupEdit (body : List Byte) : codeCheck 0x14#8 body = countedLength body 2 3 4 32 := rfl

theorem codeCheck_loopSet (body : List Byte) : codeCheck 0x40#8 body = countedLength body 42 43 8 8 := rfl

/-! ## The refusals in their order (R191, R192) -/

section
variable {s : State} {h : ReqHead} (code : Byte) (check : Option Status)

theorem refusal_badFrame (bad : h.crcOk = false) : s.refusal h code check = some .badFrame := by
  simp [State.refusal, bad]

variable (crc : h.crcOk = true)
include crc

theorem refusal_badTag (zero : h.tag = 0#8) : s.refusal h code check = some .badTag := by
  simp [State.refusal, crc, zero]

variable (tag : h.tag ≠ 0#8)
include tag

theorem refusal_tagInUse (used : ∃ o ∈ s.hpt.outstanding, o.tag = h.tag) :
    s.refusal h code check = some .tagInUse := by
  have used : s.hpt.outstanding.any (·.tag == h.tag) = true := by simpa using used
  simp [State.refusal, crc, tag, used]

variable (unused : ¬ ∃ o ∈ s.hpt.outstanding, o.tag = h.tag)
include unused

theorem refusal_busy (full : 4 ≤ s.hpt.outstanding.length) : s.refusal h code check = some .busy := by
  have unused : s.hpt.outstanding.any (·.tag == h.tag) = false := by simpa using unused
  have full : Config.maxOutstanding ≤ s.hpt.outstanding.length := full
  simp [State.refusal, crc, tag, unused, full]

theorem refusal_check (room : s.hpt.outstanding.length < 4) (st : Status) :
    s.refusal h code (some st) = some st := by
  have unused : s.hpt.outstanding.any (·.tag == h.tag) = false := by simpa using unused
  have room : ¬ Config.maxOutstanding ≤ s.hpt.outstanding.length := Nat.not_le.2 room
  simp [State.refusal, crc, tag, unused, room]

end

/-- In STARTING a request that is heard is refused, PART.IDENT and PART.STATUS apart (R185, R192). -/
theorem refusal_starting {s : State} {h : ReqHead} (ha : s.hears h) (phase : s.suc.phase = .starting) {code : Byte}
    (notIdent : code ≠ 0x70#8) (notStatus : code ≠ 0x71#8) : s.refusal h code none = some .starting := by
  obtain ⟨-, -, crc, tag, unused, room⟩ := ha
  simp [State.refusal, crc, tag, unused, Nat.not_le.2 room, phase, notIdent, notStatus]

/-- A refusal is the whole step (R191 to R193). -/
theorem taking_refused {s : State} {h : ReqHead} {code : Byte} {check : Option Status} {own : State → State}
    {st : Status} (live : s.live = true) (place : s.hpt.placesUsed < 8) (refused : s.refusal h code check = some st) :
    s.taking (fun s => s.request h code check own) = .next (s.replied h code st []) := by
  rw [taking_live live, request_refused place refused]
  rfl

theorem taking_dropped {s : State} {h : ReqHead} {code : Byte} {check : Option Status} {own : State → State}
    (live : s.live = true) (full : 8 ≤ s.hpt.placesUsed) :
    s.taking (fun s => s.request h code check own) = .next s.arbitrated := by
  rw [taking_live live, request_dropped full]

/-- What a command comes to depends on its meaning in the state alone. -/
theorem taking_congr {s : State} {f g : State → State} (same : f s = g s) : s.taking f = s.taking g := by
  rw [State.taking, same, State.taking]

/-- A frame that fails the code or the length check reaches no owner (R192, R201). -/
theorem frameTaken_failed {code : Byte} {body : List Byte} {st : Status} (failed : codeCheck code body = some st)
    (h : ReqHead) (s : State) : frameTaken h code body s = s.request h code (some st) id := by
  rw [frameTaken, failed]

/-- A PART.RESET with a scope of no reset is a request all the same, answered BAD_ARG (R186). -/
theorem frameTaken_badScope {scope : Byte} (bad : 4 ≤ scope.toNat) (h : ReqHead) (s : State) :
    frameTaken h 0x72#8 [scope] s = s.request h 0x72#8 none fun t => t.answer h.tag .badArg := by
  have read : frameTaken h 0x72#8 [scope] s = reqPartReset h scope s := rfl
  rw [read, reqPartReset, if_neg (by bv_omega), if_neg (by bv_omega), if_neg (by bv_omega), if_neg (by bv_omega)]

end Sys2Proof.Machine
end

section
/-! SUPPORT. The items of a request read back from the body they were laid out in (R200 to R202, 10.3.1). -/

namespace Sys2Proof.Machine

theorem natByte_toNat {n : Nat} (h : n < 256) : (natByte n).toNat = n := by
  rw [natByte, BitVec.toNat_ofNat, Nat.mod_eq_of_lt h]

/-- A list behind its count byte, in a body of the length the count gives, passes the length check (R201). -/
theorem countedLength_none {body : List Byte} {offset base each most n : Nat} (count : (byteAt body offset).toNat = n)
    (short : n ≤ most) (length : body.length = base + each * n) (inside : offset < base) :
    countedLength body offset base each most = none := by
  rw [countedLength_eq, count]
  exact if_pos ⟨by omega, short, length⟩

/-! ## GROUP.ADD and GROUP.EDIT -/

theorem valuesAt_cons (b : Byte) (l : List Byte) (o n : Nat) : valuesAt (b :: l) (o + 1) n = valuesAt l o n := by
  induction n generalizing o with
  | zero => rfl
  | succ n ih => exact congrArg (valAt l o :: ·) (ih (o + 4))

/-- The record items behind the group number (table 10.4). -/
theorem rawRecordAt_groupAdd (g : Byte) {r : RawRecord} (short : r.values.length ≤ 32) :
    (byteAt (g :: recordWire r) 6).toNat = r.values.length ∧
      rawRecordAt (g :: recordWire r) 1 r.values.length = r := by
  have count := countByte_recordWire r (by omega) []
  have items := rawRecordAt_recordWire r []
  rw [List.append_nil] at count items
  refine ⟨count, Eq.trans ?_ items⟩
  exact congrArg (RawRecord.mk _ _ _ _ _) (valuesAt_cons g (recordWire r) 8 _)

theorem frameTaken_groupAdd (h : ReqHead) (g : Byte) {r : RawRecord} (short : r.values.length ≤ 32) (s : State) :
    frameTaken h 0x11#8 (g :: recordWire r) s = reqGroupAdd h g r s := by
  obtain ⟨count, items⟩ := rawRecordAt_groupAdd g short
  have passed : codeCheck 0x11#8 (g :: recordWire r) = none :=
    (codeCheck_groupAdd _).trans
      (countedLength_none count short (by rw [List.length_cons, length_recordWire]; omega) (by decide))
  rw [frameTaken, passed]
  refine Eq.trans ?_ (congrArg (reqGroupAdd h g · s) items)
  rw [← count]
  rfl

theorem length_flatMap_valBytes (vs : List Val) : (vs.flatMap valBytes).length = 4 * vs.length := by
  simp [List.length_flatMap, Nat.mul_comm]

theorem frameTaken_groupEdit (h : ReqHead) (g index : Byte) {vs : List Val} (short : vs.length ≤ 32) (s : State) :
    frameTaken h 0x14#8 ([g, index, natByte vs.length] ++ vs.flatMap valBytes) s = reqGroupEdit h g index vs s := by
  have count : (byteAt ([g, index, natByte vs.length] ++ vs.flatMap valBytes) 2).toNat = vs.length :=
    natByte_toNat (by omega)
  have items := valuesAt_flatMap [g, index, natByte vs.length] [] vs
  rw [List.append_nil] at items
  have passed : codeCheck 0x14#8 ([g, index, natByte vs.length] ++ vs.flatMap valBytes) = none :=
    (codeCheck_groupEdit _).trans
      (countedLength_none count short (by rw [List.length_append, length_flatMap_valBytes]; rfl) (by decide))
  rw [frameTaken, passed]
  refine Eq.trans ?_ (congrArg (reqGroupEdit h g index · s) items)
  show reqGroupEdit h g index (valuesAt _ 3 (byteAt _ 2).toNat) s = _
  rw [count]
  rfl

/-! ## LOOP.SET -/

/-- The items of a LOOP.SET, one behind the other (10.5.2). -/
theorem loopWire_eq (r : RawLoop) :
    loopWire r =
      r.line :: r.period :: r.measTarget :: (halfBytes r.measReg ++ r.outTarget :: (halfBytes r.outReg ++
        (valBytes r.setpoint ++ (halfBytes r.step ++ (valBytes r.narrow ++ (valBytes r.wide ++ (valBytes r.min ++
        (valBytes r.max ++ r.polarity :: r.fast :: (valBytes r.initialOutput ++ r.autostart :: r.followerPresent ::
        r.followerTarget :: (halfBytes r.followerReg ++ natByte r.points.length ::
        r.points.flatMap pointBytes)))))))))) := by
  simp only [loopWire, List.append_assoc, List.cons_append, List.nil_append]

theorem length_loopWire (r : RawLoop) : (loopWire r).length = 42 + 8 * r.points.length := by
  have points : (r.points.flatMap pointBytes).length = 8 * r.points.length := by
    simp [List.length_flatMap, pointBytes, Nat.mul_comm]
  simp only [loopWire, List.length_append, List.length_cons, List.length_nil, length_halfBytes, length_valBytes, points]

/-- The loop items behind the loop number. -/
theorem rawLoopAt_loopSet (n : Byte) (r : RawLoop) : rawLoopAt (n :: loopWire r) 1 r.points.length = r := by
  have follower : (n :: loopWire r).drop 38 =
      r.followerPresent :: r.followerTarget :: (halfBytes r.followerReg ++ natByte r.points.length ::
        (r.points.flatMap pointBytes ++ [])) := by
    rw [loopWire_eq, List.append_nil]
    rfl
  have followerReg : halfAt (n :: loopWire r) 40 = r.followerReg :=
    halfAt_of_drop (by rw [← List.drop_drop (i := 2) (j := 38), follower]; rfl)
  have points : pointsAt (n :: loopWire r) 43 r.points.length = r.points :=
    pointsAt_of_drop (by rw [← List.drop_drop (i := 5) (j := 38), follower]; rfl)
  rw [rawLoopAt, followerReg, points]
  rw [loopWire_eq]
  obtain ⟨line, period, measTarget, measReg, outTarget, outReg, setpoint, step, narrow, wide, min, max, polarity, fast,
    initialOutput, autostart, followerPresent, followerTarget, followerReg, points⟩ := r
  rw [RawLoop.mk.injEq]
  exact ⟨rfl, rfl, rfl, halfAt_of_drop rfl, rfl, halfAt_of_drop rfl, valAt_of_drop rfl, halfAt_of_drop rfl,
    valAt_of_drop rfl, valAt_of_drop rfl, valAt_of_drop rfl, valAt_of_drop rfl, rfl, rfl, valAt_of_drop rfl, rfl, rfl,
    rfl, rfl, rfl⟩

theorem frameTaken_loopSet (h : ReqHead) (n : Byte) {r : RawLoop} (short : r.points.length ≤ 8) (s : State) :
    frameTaken h 0x40#8 (n :: loopWire r) s = reqLoopSet h n r s := by
  have byte : byteAt (n :: loopWire r) 42 = natByte r.points.length := by rw [loopWire_eq]; rfl
  have count : (byteAt (n :: loopWire r) 42).toNat = r.points.length := by rw [byte, natByte_toNat (by omega)]
  have passed : codeCheck 0x40#8 (n :: loopWire r) = none :=
    (codeCheck_loopSet _).trans
      (countedLength_none count short (by rw [List.length_cons, length_loopWire]; omega) (by decide))
  rw [frameTaken, passed]
  refine Eq.trans ?_ (congrArg (reqLoopSet h n · s) (rawLoopAt_loopSet n r))
  rw [← count]
  rfl

/-! ## Requests with items of more than one byte -/

theorem frameTaken_targetRead (h : ReqHead) (t : Byte) (reg : Half) (s : State) :
    frameTaken h 0x23#8 (t :: halfBytes reg) s = reqTargetRead h t reg s := by
  have item : halfAt (t :: halfBytes reg) 1 = reg := halfAt_of_drop (r := []) rfl
  exact congrArg (reqTargetRead h t · s) item

theorem frameTaken_laneSet (h : ReqHead) (n : Byte) (c : RawLane) (s : State) :
    frameTaken h 0x24#8 ([n, c.kind] ++ halfBytes c.speed ++ [c.modePresent, c.mode]) s = reqLaneSet h n c s := by
  have item : halfAt ([n, c.kind] ++ halfBytes c.speed ++ [c.modePresent, c.mode]) 2 = c.speed := halfAt_of_drop rfl
  exact congrArg (fun speed => reqLaneSet h n { c with speed := speed } s) item

theorem frameTaken_syncSet (h : ReqHead) (line edge : Byte) (window : Half) (s : State) :
    frameTaken h 0x30#8 ([line, edge] ++ halfBytes window) s = reqSyncSet h line edge window s := by
  have item : halfAt ([line, edge] ++ halfBytes window) 2 = window := halfAt_of_drop (r := []) rfl
  exact congrArg (reqSyncSet h line edge · s) item

theorem frameTaken_slotSave (h : ReqHead) (g slot : Byte) (label : Label) (s : State) :
    frameTaken h 0x50#8 ([g, slot] ++ label.toList) s = reqSlotSave h g slot label s := by
  have item : labelAt ([g, slot] ++ label.toList) 2 = label := by
    refine Vector.ext fun i hi => ?_
    simp only [labelAt, Vector.getElem_ofFn]
    exact (byteAt_append_right [g, slot] label.toList i).trans (by simp [byteAt, hi])
  have passed : codeCheck 0x50#8 ([g, slot] ++ label.toList) = none :=
    (codeCheck_fixed (x := (0x50#8, 10)) (by decide) _).trans (if_pos (by simp))
  rw [frameTaken, passed]
  exact congrArg (reqSlotSave h g slot · s) item

/-! ## The statement -/

/-- The command of a request row and the frame that carries it come to the same (R200 to R202). -/
theorem taking_frame {c : Instr} {h : ReqHead} {code : Byte} {body : List Byte} {s : State}
    (request : requestOf c = some (h, code, none)) (items : bodyOf c = some body) :
    s.taking (frameTaken h code body) = exec c s := by
  cases c
  case groupAdd h' g r =>
    obtain ⟨rfl, rfl, passed⟩ : h' = h ∧ 0x11#8 = code ∧ addLength r = none := by simpa [requestOf] using request
    cases items
    exact taking_congr (frameTaken_groupAdd h' g (by simpa [addLength] using passed) s)
  case groupEdit h' g index vs =>
    obtain ⟨rfl, rfl, passed⟩ : h' = h ∧ 0x14#8 = code ∧ editLength vs = none := by simpa [requestOf] using request
    cases items
    exact taking_congr (frameTaken_groupEdit h' g index (by simpa [editLength] using passed) s)
  case loopSet h' n r =>
    obtain ⟨rfl, rfl, passed⟩ : h' = h ∧ 0x40#8 = code ∧ loopLength r = none := by simpa [requestOf] using request
    cases items
    exact taking_congr (frameTaken_loopSet h' n (by simpa [loopLength] using passed) s)
  all_goals cases request
  all_goals cases items
  case targetRead t reg => exact taking_congr (frameTaken_targetRead h t reg s)
  case laneSet n c => exact taking_congr (frameTaken_laneSet h n c s)
  case syncSet line edge window => exact taking_congr (frameTaken_syncSet h line edge window s)
  case slotSave g slot label => exact taking_congr (frameTaken_slotSave h g slot label s)
  all_goals exact taking_congr rfl

/-- Settles O9: the requests by their bodies, the checks by code, and the refusals in their order. -/
theorem frameCarriesItsRequest : Obligations.FrameCarriesItsRequest := by
  refine ⟨fun c h code body s => taking_frame, fun body => ⟨fun code => ?unknown,
      fun x listed => codeCheck_fixed listed body, (codeCheck_groupAdd body).trans (countedLength_eq ..),
      (codeCheck_groupEdit body).trans (countedLength_eq ..), (codeCheck_loopSet body).trans (countedLength_eq ..)⟩,
    fun s h code body st live failed => ?refused,
    fun s h scope bad => ?scope⟩
  case unknown => exact fun unlisted add edit loop => codeCheck_unknown unlisted add edit loop body
  case refused =>
    have same : s.taking (frameTaken h code body) = s.taking fun s => s.request h code (some st) id :=
      taking_congr (frameTaken_failed failed h s)
    simp only [same]
    refine ⟨taking_dropped live, fun place => ?_⟩
    have refused {x : Status} :=
      taking_refused (own := id) (st := x) (code := code) (h := h) (check := some st) live place
    exact ⟨fun crc => refused (refusal_badFrame _ _ crc), fun crc zero => refused (refusal_badTag _ _ crc zero),
      fun crc tag used => refused (refusal_tagInUse _ _ crc tag used),
      fun crc tag unused full => refused (refusal_busy _ _ crc tag unused full),
      fun crc tag unused room => refused (refusal_check _ crc tag unused room st)⟩
  case scope =>
    have same : s.taking (frameTaken h 0x72#8 [scope]) =
        s.taking fun s => s.request h 0x72#8 none fun t => t.answer h.tag .badArg :=
      taking_congr (frameTaken_badScope bad h s)
    rw [same]
    exact ⟨fun ha => taking_badArg ha fun _ => rfl, fun ha phase =>
      taking_refused ha.1 ha.2.1 (refusal_starting ha phase (by decide) (by decide))⟩

end Sys2Proof.Machine
end

section
/-! SUPPORT. The body of a setup record: its fields in their ranges and what they spell, and the checks between fields
(R181, 10.5.2). -/

namespace Sys2Proof.Machine

/-! ## Lists of items that are all in range -/

theorem allPresent_eq_some {α : Type} (l : List (Option α)) (r : List α) :
    allPresent l = some r ↔ l = r.map some := by
  induction l generalizing r with
  | nil => cases r <;> simp [allPresent]
  | cons o l ih =>
    cases o with
    | none => cases r <;> simp [allPresent]
    | some a => cases r <;> simp [allPresent, ih, and_comm]

theorem allPresent_isSome {α : Type} (l : List (Option α)) :
    (allPresent l).isSome = true ↔ ∀ o ∈ l, o.isSome = true := by
  induction l with
  | nil => simp [allPresent]
  | cons o l ih => cases o <;> simp [allPresent, ih]

/-- The items of a table, all in range, stand at their numbers. -/
theorem allPresent_upTo {α : Type} {n : Nat} {f : Fin n → Option α} {r : List α}
    (present : allPresent ((upTo n).map f) = some r) : (∀ i : Fin n, r[i.val]? = f i) ∧ r.length = n := by
  rw [allPresent_eq_some] at present
  have length : r.length = n := by simpa [upTo] using (congrArg List.length present).symm
  refine ⟨fun i => ?_, length⟩
  have inside : i.val < r.length := by omega
  have here : some (f i) = some (some r[i.val]) := by
    simpa [upTo, inside] using congrArg (fun l => l[i.val]?) present
  rw [List.getElem?_eq_getElem inside, Option.some.inj here]

theorem allPresent_upTo_isSome {α : Type} {n : Nat} (f : Fin n → Option α) :
    (allPresent ((upTo n).map f)).isSome = true ↔ ∀ i, (f i).isSome = true := by
  simp [allPresent_isSome, upTo]

/-! ## The sync lines (R59, R181) -/

theorem edgeOf_eq_some (b : Byte) (e : EdgeSel) : edgeOf b = some e ↔ e.byte = b := by
  constructor
  · unfold edgeOf
    split_ifs with h h' h'' <;> cases e <;> simp_all [EdgeSel.byte]
  · rintro rfl
    exact edgeOf_byte e

theorem edgeOf_isSome (b : Byte) : (edgeOf b).isSome = true ↔ b.toNat ≤ 2 := by
  constructor
  · intro h
    obtain ⟨e, he⟩ := Option.isSome_iff_exists.1 h
    rw [← (edgeOf_eq_some b e).1 he]
    cases e <;> decide
  · intro h
    obtain rfl | rfl | rfl : b = 0#8 ∨ b = 1#8 ∨ b = 2#8 := by bv_omega
    all_goals rfl

theorem setupSyncAt_isSome (body : List Byte) (o : Nat) :
    (setupSyncAt body o).isSome = true ↔ (byteAt body o).toNat ≤ 2 ∧ (halfAt body (o + 1)).toNat ≤ 6000 := by
  rw [← edgeOf_isSome, setupSyncAt]
  cases edgeOf (byteAt body o) <;> simp

theorem setupSyncAt_spelt {body : List Byte} {o : Nat} {y : EdgeSel × Half} (h : setupSyncAt body o = some y) :
    y.1.byte = byteAt body o ∧ y.2 = halfAt body (o + 1) := by
  unfold setupSyncAt at h
  split at h
  · cases h
  · next e edge =>
    obtain ⟨-, same⟩ := Option.ite_none_right_eq_some.1 h
    cases same
    exact ⟨(edgeOf_eq_some _ _).1 edge, rfl⟩

/-! ## The loops (R181, R203) -/

/-- A loop block's items pass when its two flags do and, stored configured, its configuration does. -/
theorem setupLoopAt_isSome (body : List Byte) (o : Nat) :
    (setupLoopAt body o).isSome = true ↔
      (byteAt body o).toNat ≤ 1 ∧ (byteAt body (o + 37)).toNat ≤ 1 ∧
      (byteAt body o = 1#8 → (loopCfgOf (rawLoopAt body (o + 1) (byteAt body (o + 42)).toNat)).isSome = true) := by
  rw [← flagOf_isSome, ← flagOf_isSome, setupLoopAt, show byteAt body o = 1#8 ↔ flagOf (byteAt body o) = some true from
    eq_comm.trans (flagOf_eq_some _ true).symm]
  rcases flagOf (byteAt body o) with _ | _ | _ <;> cases flagOf (byteAt body (o + 37)) <;> simp

theorem setupLoopAt_spelt {body : List Byte} {o : Nat} {configured autostart : Bool} {c : LoopCfg}
    (h : setupLoopAt body o = some (configured, autostart, c)) :
    flagByte configured = byteAt body o ∧ flagByte autostart = byteAt body (o + 37) ∧
      (configured = true → loopCfgOf (rawLoopAt body (o + 1) (byteAt body (o + 42)).toNat) = some c) := by
  rw [← flagOf_eq_some, ← flagOf_eq_some]
  unfold setupLoopAt at h
  split at h
  · next flag mark =>
    obtain ⟨c, taken, same⟩ := Option.map_eq_some_iff.1 h
    cases same
    exact ⟨flag, mark, fun _ => taken⟩
  · next flag mark =>
    cases h
    exact ⟨flag, mark, nofun⟩
  all_goals cases h

/-! ## The designation (R176, R181) -/

theorem designationOf_isSome (r : RawDesignation) :
    (designationOf r).isSome = true ↔
      r.present.toNat ≤ 1 ∧ (r.present = 1#8 → r.slot.toNat ≤ 31 ∧ r.line.toNat ≤ 1) := by
  rw [← flagOf_isSome, ← lineOf_isSome, ← Nat.lt_succ_iff, ← inRange_isSome, designationOf,
    show r.present = 1#8 ↔ flagOf r.present = some true from eq_comm.trans (flagOf_eq_some _ true).symm]
  rcases flagOf r.present with _ | _ | _
  · simp
  · simp
  · cases inRange 32 r.slot <;> cases lineOf r.line <;> simp

/-- The items of a designation that is present spell it. -/
theorem designationOf_present {r : RawDesignation} (present : r.present = 1#8) {o : Option Designation}
    (h : designationOf r = some o) :
    ∃ d : Designation, o = some d ∧ natByte d.slot.val = r.slot ∧ lineByte d.line = r.line ∧ d.skip = r.skip := by
  have flag : flagOf r.present = some true := by rw [present]; rfl
  simp only [designationOf, flag, Option.bind_eq_bind, Option.bind_eq_some_iff] at h
  obtain ⟨slot, hslot, line, hline, same⟩ := h
  cases same
  exact ⟨_, rfl, (inRange_eq_some (by decide) _ _).1 hslot, (lineOf_eq_some _ _).1 hline, rfl⟩

/-! ## The body (R181) -/

theorem setupOf_isSome (body : List Byte) :
    (setupOf body).isSome = true ↔
      (∀ l : Fin 4, (laneSettingsOf (rawLaneAt body (5 * l.val))).isSome = true) ∧
      (∀ t : Fin 16, (targetCfgOf (rawTargetAt body (20 + 9 * t.val))).isSome = true) ∧
      (∀ k : Fin 2, (setupSyncAt body (164 + 3 * k.val)).isSome = true) ∧
      (∀ n : Fin 4, (setupLoopAt body (170 + 107 * n.val)).isSome = true) ∧
      (designationOf (rawDesignationAt body 598)).isSome = true := by
  simp only [← allPresent_upTo_isSome]
  refine isSome_bind_iff _ _ fun _ => isSome_bind_iff _ _ fun _ => isSome_bind_iff _ _ fun _ =>
    isSome_bind_iff _ _ fun _ => ?_
  cases designationOf (rawDesignationAt body 598) <;> simp

/-- A body that passes gives each field from its place. -/
theorem setupOf_spelt {body : List Byte} {x : Setup} (h : setupOf body = some x) :
    ((∀ l : Fin 4, x.lanes[l.val]? = laneSettingsOf (rawLaneAt body (5 * l.val))) ∧ x.lanes.length = 4) ∧
    ((∀ t : Fin 16, x.targets[t.val]? = targetCfgOf (rawTargetAt body (20 + 9 * t.val))) ∧ x.targets.length = 16) ∧
    ((∀ k : Fin 2, x.sync[k.val]? = setupSyncAt body (164 + 3 * k.val)) ∧ x.sync.length = 2) ∧
    ((∀ n : Fin 4, x.loops[n.val]? = setupLoopAt body (170 + 107 * n.val)) ∧ x.loops.length = 4) ∧
    designationOf (rawDesignationAt body 598) = some x.designation := by
  simp only [setupOf, Option.bind_eq_bind, Option.bind_eq_some_iff] at h
  obtain ⟨lanes, hlanes, targets, htargets, sync, hsync, loops, hloops, designation, hdesignation, same⟩ := h
  cases same
  exact ⟨allPresent_upTo hlanes, allPresent_upTo htargets, allPresent_upTo (n := 2) hsync, allPresent_upTo hloops,
    hdesignation⟩

/-! ## The checks between fields (R181) -/

/-- Enabled targets of one lane have addresses of their own. -/
def TargetCfg.apart (c d : TargetCfg) : Prop :=
  c.enabled = true → d.enabled = true → c.lane = d.lane → c.address ≠ d.address

theorem addressesApart_iff (l : List TargetCfg) : addressesApart l = true ↔ l.Pairwise TargetCfg.apart := by
  induction l with
  | nil => simp [addressesApart]
  | cons c l ih =>
    have first : (!(c.enabled && l.any fun d => d.enabled && d.lane == c.lane && d.address == c.address)) = true ↔
        ∀ d ∈ l, c.apart d := by
      simp only [TargetCfg.apart]
      grind
    rw [addressesApart, Bool.and_eq_true, ih, first, List.pairwise_cons, and_comm]

theorem consistent_iff {x : Setup} (four : x.lanes.length = 4) :
    x.consistent = true ↔
      (∀ c ∈ x.targets, c.enabled = true → ∀ k, x.lanes[c.lane.val]? = some k → c.fitsKind k = true) ∧
      x.targets.Pairwise TargetCfg.apart := by
  rw [Setup.consistent, Bool.and_eq_true, addressesApart_iff, List.all_eq_true]
  refine and_congr_left' (forall₂_congr fun c _ => ?_)
  have inside : c.lane.val < x.lanes.length := by omega
  simp only [List.getD_eq_getElem?_getD, List.getElem?_eq_getElem inside, Option.getD_some, Option.some.injEq,
    forall_eq', Bool.or_eq_true, Bool.not_eq_true']
  cases c.enabled <;> simp

end Sys2Proof.Machine
end

section
/-! SUPPORT. The setup area: the record that is saved, what a read of the area finds, and what an applied record leaves
(R175, R180, R181). -/

namespace Sys2Proof.Machine

/-! ## The record of a save (R175, 10.5.2) -/

theorem setupLoop_eq (x : LoopEntry) :
    setupLoop x =
      if x.configured = true then loopBlock true x.cfg
      else List.replicate 37 0#8 ++ [flagByte x.cfg.autostart] ++ List.replicate 69 0#8 := rfl

theorem designationBytes_eq (o : Option Designation) :
    designationBytes o = match o with
      | none => [0#8, 0#8, 0#8, 0#8]
      | some d => [1#8, natByte d.slot.val, lineByte d.line, d.skip] := by
  cases o <;> rfl

/-! ## The read of the setup area (R180) -/

/-- The header of the setup area and the body behind it. -/
abbrev setupHeader (m : List Host.Cell) : List Byte := Memory.readAll m 131072 16
abbrev setupStored (m : List Host.Cell) : List Byte := Memory.readAll m 131088 602

/-- The header is that of a setup record, and its check code is the body's (R180, 10.5.2). -/
abbrev setupHeaderGood (m : List Host.Cell) : Prop :=
  valAt (setupHeader m) 0 = 0x9B47D1E2#32 ∧ byteAt (setupHeader m) 4 = 1#8 ∧ halfAt (setupHeader m) 6 = 602#16 ∧
    crc32 (setupStored m) = valAt (setupHeader m) 8

/-- What the body behind a good header comes to: applied when its fields and the checks between them pass (R180,
R181). -/
def setupFound : Option Setup → SetupStatus × Option Setup
  | none => (.invalid, none)
  | some x => if x.consistent then (.applied, some x) else (.invalid, none)

section
variable {m : List Host.Cell}

theorem readSetup_blank (erased : ∀ b ∈ setupHeader m, b = 0xFF#8) : readSetup m = (.blank, none) :=
  if_pos ((allErased_iff _).2 erased)

variable (written : ∃ b ∈ setupHeader m, b ≠ 0xFF#8)
include written

theorem not_allErased_header : ¬ allErased (setupHeader m) = true := by
  rw [allErased_iff]
  push Not
  exact written

theorem readSetup_good (good : setupHeaderGood m) : readSetup m = setupFound (setupOf (setupStored m)) := by
  obtain ⟨marker, version, length, crc⟩ := good
  have length : (halfAt (setupHeader m) 6).toNat = 602 := by rw [length]; rfl
  refine (if_neg (not_allErased_header written)).trans ((if_neg ?_).trans ((if_neg (not_not.2 crc)).trans rfl))
  exact fun header => header.elim (· marker) fun header => header.elim (· version) (· length)

theorem readSetup_bad (bad : ¬ setupHeaderGood m) : readSetup m = (.invalid, none) := by
  have length : (halfAt (setupHeader m) 6).toNat = 602 ↔ halfAt (setupHeader m) 6 = 602#16 := by bv_omega
  refine (if_neg (not_allErased_header written)).trans ?_
  by_cases header : valAt (setupHeader m) 0 = setupMarker ∧ byteAt (setupHeader m) 4 = 1#8 ∧
      (halfAt (setupHeader m) 6).toNat = 602
  · obtain ⟨marker, version, whole⟩ := header
    refine (if_neg ?_).trans (if_pos fun crc => bad ⟨marker, version, length.1 whole, crc⟩)
    exact fun header => header.elim (· marker) fun header => header.elim (· version) (· whole)
  · rw [not_and_or, not_and_or] at header
    exact if_pos header

end

/-! ## What an applied record leaves (R181) -/

section
variable (s : State) (x : Setup)

theorem lane_applySetup (l : Fin 4) :
    (s.applySetup x).lane l = { s.lane l with settings := x.lanes.getD l.val (s.lane l).settings } := by
  simp [State.applySetup, State.lane]

theorem target_applySetup (i : Fin 16) :
    (s.applySetup x).target i = ⟨x.targets.getD i.val (s.target i).cfg, none⟩ := by
  simp [State.applySetup, State.target]

theorem line_applySetup_sync0 {e : EdgeSel} {w : Half} (stored : x.sync[0]? = some (e, w)) :
    (s.applySetup x).line .sync0 = { s.line .sync0 with edge := e, window := w } := by
  simp only [State.applySetup, State.line, stored, SyncLine.withSetup]

theorem line_applySetup_sync1 {e : EdgeSel} {w : Half} (stored : x.sync[1]? = some (e, w)) :
    (s.applySetup x).line .sync1 = { s.line .sync1 with edge := e, window := w } := by
  simp only [State.applySetup, State.line, stored, SyncLine.withSetup]

theorem loop_applySetup {n : Fin 4} {y : Bool × Bool × LoopCfg} (stored : x.loops[n.val]? = some y) :
    (s.applySetup x).loop n = (s.loop n).withSetup y := by
  simp [State.applySetup, State.loop, stored]

/-- The live designation is the record's; the arm list, the groups, the store, the Host Port and the array stay. -/
theorem applySetup_frame :
    (s.applySetup x).suc = { s.suc with designation := x.designation } ∧ (s.applySetup x).sau.arm = s.sau.arm ∧
      (s.applySetup x).gtb = s.gtb ∧ (s.applySetup x).lsq = s.lsq ∧ (s.applySetup x).psc = s.psc ∧
      (s.applySetup x).hpt = s.hpt ∧ (s.applySetup x).nv = s.nv := by
  simp only [State.applySetup, and_self]

end

/-! ## The statement -/

/-- Settles O58: the body field by field, the checks between fields, the saved record, the area read, the record
applied. -/
theorem setupRecordChecksAndApply : Obligations.SetupRecordChecksAndApply := by
  refine ⟨fun body => ⟨?passes, fun x h => ?fields⟩, fun x four => consistent_iff four, fun s => ⟨rfl, ?saved⟩,
    fun m => ⟨readSetup_blank, readSetup_bad, fun written good => ?good⟩,
    fun s x => ⟨lane_applySetup s x, target_applySetup s x, fun e w => line_applySetup_sync0 s x,
      fun e w => line_applySetup_sync1 s x, fun n a c => ⟨loop_applySetup s x, loop_applySetup s x⟩,
      applySetup_frame s x⟩⟩
  case passes =>
    have window (k : Fin 2) : 164 + 3 * k.val + 1 = 165 + 3 * k.val := by omega
    rw [setupOf_isSome, designationOf_isSome]
    simp only [setupSyncAt_isSome, setupLoopAt_isSome, window]
    rfl
  case fields =>
    obtain ⟨⟨lanes, four⟩, ⟨targets, sixteen⟩, ⟨sync, two⟩, ⟨loops, loopsFour⟩, designation⟩ := setupOf_spelt h
    refine ⟨lanes, four, targets, sixteen, fun k => ?sync, fun n => ?loop, fun absent => ?absent,
      fun present => designationOf_present present designation⟩
    case sync =>
      have stored : x.sync[k.val]? = some x.sync[k.val] := List.getElem?_eq_getElem (by omega)
      obtain ⟨edge, window⟩ := setupSyncAt_spelt ((sync k).symm.trans stored)
      refine ⟨_, ?_, edge⟩
      rw [stored, show 165 + 3 * k.val = 164 + 3 * k.val + 1 by omega, ← window]
    case loop =>
      have stored : x.loops[n.val]? = some x.loops[n.val] := List.getElem?_eq_getElem (by omega)
      exact ⟨_, _, _, stored, setupLoopAt_spelt ((loops n).symm.trans stored)⟩
    case absent =>
      rw [designationOf_absent (r := rawDesignationAt body 598) absent, Option.some.injEq] at designation
      exact designation.symm
  case saved =>
    rw [setupBody, designationBytes_eq]
    rfl
  case good =>
    rw [readSetup_good written good]
    refine ⟨fun unread => by rw [unread]; rfl, fun x read => ⟨fun apart => ?_, fun consistent => ?_⟩⟩
    · rw [read, setupFound, apart]
      rfl
    · rw [read, setupFound, consistent]
      rfl

end Sys2Proof.Machine
end

section
/-! SUPPORT. The host limits and the marks of a step, and the refusals of a request row in their order (R191 to R196). -/

namespace Sys2Proof.Machine

/-! ## The host limits (R193 to R195) -/

/-- Every elementary update keeps the host limits: only refusals, acceptances, replies and notices move the queues. -/
theorem whole_limits : Whole fun s => s.hpt.limits where
  toLaneSide := laneSide_limits
  store _ _ h := h
  startup _ _ h := h
  array _ _ _ h := h
  own _ _ _ h := h
  records _ _ _ _ h := h
  config _ _ _ _ _ h := h
  clear _ h := h
  blocks _ _ _ _ := ⟨Nat.zero_le _, Nat.zero_le _, Nat.zero_le _⟩
  refuse _ _ _ _ place h := limits_refuse h place _ _ _
  accept _ _ _ place entry h := limits_accepted h place _ _ entry
  replyFull _ _ _ _ h := limits_answer h _ _ _
  port _ _ _ _ h := h
  head _ h := limits_takeNotice h
  placed _ h := h
  arbiter _ h := limits_arbitrate h

/-! ## The marks of a step (log entries 5 and 38) -/

/-- No notice of `t` counts as raised, and no reset as made, in the step under way, if none did in `s`. -/
def State.MarksKept (s t : State) : Prop :=
  (s.raised = 0 → t.raised = 0) ∧ (s.hpt.cut ≠ .raised → t.hpt.cut ≠ .raised)

theorem aged_ne_raised (m : CutMark) : m.aged ≠ .raised := by cases m <;> nofun

section
variable {s t u : State}

theorem marksKept_of_same (raised : t.raised = s.raised) (cut : t.hpt.cut = s.hpt.cut) : s.MarksKept t :=
  ⟨raised.trans, fun unmarked => cut ▸ unmarked⟩

/-- The end of a step clears both, whatever the step did before it. -/
theorem marksKept_arbitrated (s u : State) : s.MarksKept u.arbitrated := ⟨fun _ => rfl, fun _ => aged_ne_raised _⟩

theorem marksKept_taking {f : State → State} (same : s.MarksKept u) (ht : u.taking f = .next t) : s.MarksKept t := by
  unfold State.taking at ht
  split_ifs at ht
  · cases ht
    exact marksKept_arbitrated s _
  · cases ht
    exact same

/-- A reset raises nothing, and leaves the Host Port without a mark. -/
theorem marksKept_reset (raised : t.raised = s.raised) {rate : Baud} (port : t.hpt = Hpt.reset rate) :
    s.MarksKept t := ⟨raised.trans, fun _ => by rw [port]; nofun⟩

theorem marksKept_powerOn (x : Straps) (s : State) : s.MarksKept (powerOn x s) := by
  unfold powerOn
  split
  · exact marksKept_reset rfl rfl
  · exact marksKept_reset rfl rfl

theorem marksKept_resetnRelease (x : Straps) (s : State) : s.MarksKept (resetnRelease x s) := by
  unfold resetnRelease
  split
  · exact marksKept_of_same rfl rfl
  · split
    · exact marksKept_reset rfl rfl
    · exact marksKept_of_same rfl rfl

theorem marksKept_exec {c : Instr} (ht : exec c s = .next t) : s.MarksKept t := by
  have same : s.MarksKept s := marksKept_of_same rfl rfl
  cases c
  case powerOn x => cases ht; exact marksKept_powerOn x s
  case powerFail => cases ht; exact marksKept_reset rfl rfl
  case resetnAssert => cases ht; exact marksKept_reset rfl rfl
  case resetnRelease x => cases ht; exact marksKept_resetnRelease x s
  case syncLevelChange l x =>
    have pin : s.MarksKept (s.setPinLevel l x) := by cases l <;> exact same
    exact marksKept_taking (f := levelChanged l x) pin ht
  case windowExpiry l => exact marksKept_taking (f := fun s => s.closeWindow l) same ht
  all_goals exact marksKept_taking same ht

theorem marksKept_idled (s : State) : s.MarksKept s.idled := by
  have same : s.MarksKept s := marksKept_of_same rfl rfl
  unfold State.idled
  split
  · split_ifs
    · exact marksKept_arbitrated s _
    · exact same
  all_goals exact same

theorem marksKept_step (ht : step s = .next t) : s.MarksKept t := by
  unfold step at ht
  split at ht
  · cases ht
    exact marksKept_idled s
  · have kept := marksKept_exec ht
    exact kept

end

/-- Settles O5: the limits by the elementary updates, the marks by the arbiter that ends a step. -/
theorem hostLimitsKept : Obligations.HostLimitsKept := fun s t ht => by
  obtain ⟨raised, cut⟩ := marksKept_step ht
  exact ⟨fun limits => whole_limits.step (fun _ _ h => h) limits ht, raised, cut⟩

/-! ## The refusals of a request row (R191, R192) -/

/-- A request row is a frame with the row's head, code and length check, handed to an owner. -/
theorem exec_request {c : Instr} {h : ReqHead} {code : Byte} {check : Option Status}
    (row : requestOf c = some (h, code, check)) (s : State) :
    ∃ own : State → State, exec c s = s.taking fun s => s.request h code check own := by
  cases c
  all_goals cases row
  all_goals exact ⟨_, rfl⟩

/-- Settles O3: the row as a request, then check by check. -/
theorem requestsRefusedInOrder : Obligations.RequestsRefusedInOrder := by
  intro c h code check s row live
  obtain ⟨own, taken⟩ := exec_request row s
  rw [taken]
  refine ⟨taking_dropped live, fun place => ?_⟩
  have refused {st : Status} :=
    taking_refused (own := own) (st := st) (code := code) (check := check) (h := h) live place
  refine ⟨fun bad => refused (refusal_badFrame _ _ bad), fun crc =>
    ⟨fun zero => refused (refusal_badTag _ _ crc zero), fun tag =>
      ⟨fun used => refused (refusal_tagInUse _ _ crc tag used), fun unused => ?_⟩⟩⟩
  have free : ¬ ∃ o ∈ s.hpt.outstanding, o.tag = h.tag := fun ⟨o, listed, same⟩ => unused o listed same
  refine ⟨fun full => refused (refusal_busy _ _ crc tag free full), fun room => ⟨?check, ?phase⟩⟩
  case check =>
    rintro st rfl
    exact refused (refusal_check _ crc tag free room st)
  case phase =>
    rintro rfl phase notIdent notStatus
    have heard : s.hears h := ⟨live, place, crc, tag, by simpa using unused, room⟩
    exact refused (refusal_starting heard phase notIdent notStatus)

end Sys2Proof.Machine
end

section
/-! SUPPORT. The receive assembly: the bit times of a character, the assembly's moves, and the frame it hands on (R189 to
R191). -/

namespace Sys2Proof.Machine

/-! ## A character on RXD (R189) -/

/-- The 8 data bits of a character, the least significant first, are the character. -/
theorem ofBoolListLE_bits (c : Byte) :
    BitVec.ofBoolListLE [c.getLsbD 0, c.getLsbD 1, c.getLsbD 2, c.getLsbD 3, c.getLsbD 4, c.getLsbD 5, c.getLsbD 6,
      c.getLsbD 7] = c := by
  revert c
  decide

/-! ## The moves of the assembly (R190) -/

/-- The gap timer runs from this event on. -/
abbrev State.timed (s : State) : State := { s with hpt := { s.hpt with gapTimer := true } }

section
variable {s : State} (c : Byte)

/-- A character changes nothing but the timer while the assembly waits for a gap. -/
theorem characterArrival_waits (waits : s.hpt.rx = .settling ∨ ∃ tag code, s.hpt.rx = .overlong tag code) :
    characterArrival c s = s.timed := by
  obtain settling | ⟨tag, code, overlong⟩ := waits
  · simp only [characterArrival, State.timed, settling]
  · simp only [characterArrival, State.timed, overlong]

theorem characterArrival_hunting (hunting : s.hpt.rx = .hunting) :
    characterArrival c s = if c = 0xA5#8 then s.timed.setRx (.assembling []) else s.timed := by
  simp only [characterArrival, State.timed, hunting]

theorem characterArrival_assembling {bytes : List Byte} (assembling : s.hpt.rx = .assembling bytes) :
    characterArrival c s = assemble (bytes ++ [c]) s.timed := by
  simp only [characterArrival, State.timed, assembling]

end

section
variable {s : State} {bytes : List Byte}

theorem assemble_head (short : bytes.length < 4) : assemble bytes s = s.setRx (.assembling bytes) := if_pos short

theorem assemble_overlong (head : 4 ≤ bytes.length) (long : 600 < frameLength bytes) :
    assemble bytes s = s.setRx (.overlong (byteAt bytes 0) (byteAt bytes 1)) :=
  (if_neg (Nat.not_lt.2 head)).trans (if_pos long)

theorem assemble_body (head : 4 ≤ bytes.length) (fits : frameLength bytes ≤ 600)
    (short : bytes.length < 6 + frameLength bytes) : assemble bytes s = s.setRx (.assembling bytes) :=
  (if_neg (Nat.not_lt.2 head)).trans ((if_neg (Nat.not_lt.2 fits)).trans (if_pos short))

theorem assemble_whole (fits : frameLength bytes ≤ 600) (whole : bytes.length = 6 + frameLength bytes) :
    assemble bytes s = frameComplete bytes s :=
  (if_neg (by omega)).trans ((if_neg (Nat.not_lt.2 fits)).trans (if_neg (by omega)))

end

/-! ## The frame handed on (R191, 10.2) -/

/-- The bytes of a frame behind its marker, whatever its check bytes (10.2). -/
abbrev frameTail (tag code : Byte) (body : List Byte) (crc : Half) : List Byte :=
  [tag, code] ++ natHalf body.length ++ body ++ halfBytes crc

section
variable (tag code : Byte) {body : List Byte} (crc : Half)

theorem length_frameTail : (frameTail tag code body crc).length = 6 + body.length := by
  simp [natHalf]
  omega

theorem frameLength_frameTail (fits : body.length ≤ 600) : frameLength (frameTail tag code body crc) = body.length := by
  have item : halfAt (frameTail tag code body crc) 2 = BitVec.ofNat 16 body.length :=
    halfAt_of_drop (r := body ++ halfBytes crc) rfl
  rw [frameLength, item, BitVec.toNat_ofNat, Nat.mod_eq_of_lt (by omega)]

/-- The assembly hands on the frame's tag, code and body, with the CRC-16 computed over them (R191, R205). -/
theorem frameComplete_frameTail (fits : body.length ≤ 600) (s : State) :
    frameComplete (frameTail tag code body crc) s =
      frameTaken ⟨tag, crc16 ([tag, code] ++ natHalf body.length ++ body) == crc⟩ code body (s.setRx .hunting) := by
  have checked : ([tag, code] ++ natHalf body.length ++ body).length = 4 + body.length := by
    simp [natHalf]
    omega
  have covered : (frameTail tag code body crc).take (4 + body.length) = [tag, code] ++ natHalf body.length ++ body :=
    List.take_left' checked
  have check : halfAt (frameTail tag code body crc) (4 + body.length) = crc :=
    halfAt_of_drop (r := []) ((List.drop_left' checked).trans (List.append_nil _).symm)
  have items : ((frameTail tag code body crc).drop 4).take body.length = body := List.take_left' (l₂ := halfBytes crc) rfl
  simp only [frameComplete, frameLength_frameTail tag code crc fits, covered, check, items]
  rfl

end

/-! ## The gap timer (R190, R191) -/

/-- The assembly hunts for a marker, its timer stopped. -/
abbrev State.hunts (s : State) : State := { s with hpt := { s.hpt with rx := .hunting, gapTimer := false } }

section
variable {s : State} (runs : s.hpt.gapTimer = true)
include runs

theorem gapExpired_overlong {tag code : Byte} (overlong : s.hpt.rx = .overlong tag code) :
    gapExpired s = if 8 ≤ s.hpt.placesUsed then s.hunts else s.hunts.refuse ⟨tag, false⟩ code .badFrame := by
  simp only [gapExpired, runs, overlong, if_true]

theorem gapExpired_hunts (other : s.hpt.rx = .settling ∨ s.hpt.rx = .hunting ∨ ∃ bytes, s.hpt.rx = .assembling bytes) :
    gapExpired s = s.hunts := by
  obtain settling | hunting | ⟨bytes, assembling⟩ := other
  · simp only [gapExpired, runs, settling, if_true]
  · simp only [gapExpired, runs, hunting, if_true]
  · simp only [gapExpired, runs, assembling, if_true]

end

/-! ## The statement -/

/-- Settles O8: a character by its bits, then the assembly's events by its state. -/
theorem receiveAssemblyMoves : Obligations.ReceiveAssemblyMoves := by
  refine ⟨fun c stop => ?heard, fun s c live => ⟨taking_live live framingError,
    fun runs => ⟨fun tag code overlong => ?overlong, fun other => ?gap⟩, fun waits => ?waits,
    fun hunting => ?hunting, fun bytes assembling => ?assembling⟩⟩
  case heard => rw [heard, ofBoolListLE_bits]
  case overlong =>
    have expired := gapExpired_overlong runs overlong
    exact ⟨fun place => (taking_live live gapExpired).trans (by rw [expired, if_neg (Nat.not_le.2 place)]; rfl),
      fun full => (taking_live live gapExpired).trans (by rw [expired, if_pos full])⟩
  case gap => exact (taking_live live gapExpired).trans (by rw [gapExpired_hunts runs other])
  all_goals
    have arrived : exec (.characterArrival c) s = .next (characterArrival c s).arbitrated :=
      taking_live live (characterArrival c)
    rw [arrived]
  case waits => rw [characterArrival_waits c waits]
  case hunting =>
    rw [characterArrival_hunting c hunting]
    exact ⟨fun marker => by rw [if_pos marker], fun other => by rw [if_neg other]⟩
  case assembling =>
    rw [characterArrival_assembling c assembling]
    have length : (bytes ++ [c]).length = bytes.length + 1 := List.length_append
    refine ⟨fun short => ?head, fun head => ⟨fun long => ?long, fun fits short => ?body⟩,
      fun tag code body crc fits whole => ?whole⟩
    case head => rw [assemble_head (length ▸ short)]
    case long => rw [assemble_overlong (length ▸ head) long]
    case body => rw [assemble_body (length ▸ head) fits (length ▸ short)]
    case whole =>
      have count := frameLength_frameTail tag code crc fits
      rw [whole, assemble_whole (count.trans_le fits) (by rw [count, length_frameTail]),
        frameComplete_frameTail tag code crc fits]

end Sys2Proof.Machine
end

section
/-! SUPPORT. The two check codes over the bytes of "123456789" (R205): the register of each code after every byte. -/

namespace Sys2Proof.Machine

/-- The ASCII bytes of "123456789", over which R205 names the value of each check code. -/
abbrev asciiDigits : List Byte := [0x31#8, 0x32#8, 0x33#8, 0x34#8, 0x35#8, 0x36#8, 0x37#8, 0x38#8, 0x39#8]

/-- No final exclusive-or: the CRC-16 is the register after the last byte. -/
theorem crc16_of_registers {l : List Byte} {r : List Half} {c : Half}
    (registers : l.scanl crc16Byte 0xFFFF#16 = r ++ [c]) : crc16 l = c := by
  have last : (l.scanl crc16Byte 0xFFFF#16).getLast? = some (crc16 l) := List.getLast?_scanl
  rw [registers, List.getLast?_concat] at last
  exact (Option.some.inj last).symm

/-- The CRC-32 is the complement of the register after the last byte. -/
theorem crc32_of_registers {l : List Byte} {r : List Val} {c : Val}
    (registers : l.scanl crc32Byte 0xFFFFFFFF#32 = r ++ [c]) : crc32 l = c ^^^ 0xFFFFFFFF#32 := by
  have last : (l.scanl crc32Byte 0xFFFFFFFF#32).getLast? = some (l.foldl crc32Byte 0xFFFFFFFF#32) :=
    List.getLast?_scanl
  rw [registers, List.getLast?_concat] at last
  rw [crc32, Option.some.inj last]

theorem crc16_registers_asciiDigits :
    asciiDigits.scanl crc16Byte 0xFFFF#16 =
      [0xFFFF#16, 0xC782#16, 0x3DBA#16, 0x5BCE#16, 0x5349#16, 0x4560#16, 0x2EF4#16, 0x7718#16, 0xA12B#16] ++
        [0x29B1#16] := by
  decide

theorem crc32_registers_asciiDigits :
    asciiDigits.scanl crc32Byte 0xFFFFFFFF#32 =
      [0xFFFFFFFF#32, 0x7C231048#32, 0xB0ACBB32#32, 0x77B79C2D#32, 0x641C1F5C#32, 0x340AC5E3#32, 0xF68D2C9E#32,
        0xAFFC9660#32, 0x651F2550#32] ++ [0x340BC6D9#32] := by
  decide

/-- Settles O10: each code from its register after the last byte, complemented for the CRC-32. -/
theorem checkCodesOfTheSpec : Obligations.CheckCodesOfTheSpec :=
  ⟨crc16_of_registers crc16_registers_asciiDigits, (crc32_of_registers crc32_registers_asciiDigits).trans (by decide)⟩

end Sys2Proof.Machine
end

section
/-! SUPPORT. The step, by the queue: the front command, or the idling of an empty queue (log entries 1 and 36). -/

namespace Sys2Proof.Machine

/-- A queue's front command is run with the queue's rest. -/
theorem step_front (c : Instr) (q : List Instr) (s : State) :
    step (s.withPending (c :: q)) = exec c (s.withPending q) := rfl

theorem step_idled {s : State} (empty : s.pending = []) : step s = .next s.idled := by
  simp only [step, empty]

/-- A held part leaves even a last step that is due for later (R178). -/
theorem idled_dead {s : State} (dead : s.live = false) : s.idled = s := by
  unfold State.idled
  split
  case h_1 => exact if_neg (by simp [dead])
  all_goals rfl

theorem idled_notDue {s : State} (notDue : ∀ r, s.suc.stage ≠ .due r) : s.idled = s := by
  unfold State.idled
  split
  case h_1 r due => exact absurd due (notDue r)
  all_goals rfl

/-- Settles O1, by the queue: on an empty one, a held part or a start with no last step due idles, and a live part makes
the last step that is due. -/
theorem stepRunsFrontCommand : Obligations.StepRunsFrontCommand := by
  refine ⟨step_front, fun s empty => ⟨fun idle => ?idle, fun r due live => step_due live empty due⟩⟩
  have unchanged : s.idled = s := idle.elim idled_dead idled_notDue
  exact (step_idled empty).trans (congrArg _ unchanged)

end Sys2Proof.Machine
end
